-- ==== Sys2Proof/Word.lean ====
section
/-! DEFINITION. The plain words of the JT2408: bytes, and the numbers that name a context, a descriptor,
an aperture, a host tag and a memory tag (spec/00 section 5, spec/02 R21, spec/07 R113, spec/08 R132). -/

namespace Sys2Proof

/-- A byte, on the ports and on the Management Link. -/
abbrev Byte := BitVec 8

/-- A walk context, 0 to 7 (R21). -/
abbrev Ctx := Fin 8

/-- A descriptor record, 0 to 63 (R1). -/
abbrev DescIx := Fin 64

/-- An aperture record, 0 to 7 (R118). -/
abbrev ApIx := Fin 8

/-- A host tag, 0 to 15 (R113). -/
abbrev HostTag := Fin 16

/-- A memory tag, 0 to 31 (R132). -/
abbrev MemTag := Fin 32

/-- The eight contexts in ascending order. -/
def allCtx : List Ctx := [0, 1, 2, 3, 4, 5, 6, 7]

/-- The 32 memory tags in ascending order. -/
def allTags : List MemTag := List.finRange 32

end Sys2Proof
end

