-- ==== Sys2Proof/Syntax.lean ====
section
/-! DEFINITION. The commands of the JT2408, one constructor per row of spec/opcode_table.json, in the table's
order. The row of a management command is the event in which its last parameter byte completes (R155), so that
byte is its operand; a command without parameters acts when its command byte completes and has no operand. -/

namespace Sys2Proof

/-- Direction of a transfer, and of a walk (R1, R113, R132). -/
inductive Kind where
  | read
  | write
  deriving DecidableEq, Repr

/-- The status that a memory response carries (R133). -/
inductive MemStatus where
  | okay
  | fault
  deriving DecidableEq, Repr

/-- A host request (Table 25). `size` counts for a single beat only. `data` and `strobes` hold one item per byte
of the request's beats, from the lowest address of the first beat, for a write. -/
structure HostRequest where
  kind : Kind
  address : BitVec 32
  beats : Nat
  size : Nat
  tag : HostTag
  data : List Byte
  strobes : List Bool
  deriving DecidableEq, Repr

/-- The commands, one per row of spec/opcode_table.json. -/
inductive Instr where
  /-- RST# goes low (R22). -/
  | hardwareReset
  /-- RST# rises; `laddr` is the level of LADDR[1:0] (R152). -/
  | rstRise (laddr : BitVec 2)
  /-- The CLOCK_MHZ periods of the microsecond in progress have passed (R162). -/
  | timebaseTick
  /-- A host request has arrived whole (R113, R120). -/
  | hostRequestArrival (r : HostRequest)
  /-- The master takes the last beat of the next response (R115). -/
  | hostResponseSent
  /-- The head of context `c` tries its next element (R38). -/
  | elementTake (c : Ctx)
  /-- The drain of context `c` completes (R30). -/
  | drainComplete (c : Ctx)
  /-- The arbiter admits the oldest passthrough request (R126). -/
  | passthroughAdmission
  /-- The arbiter admits the read-ahead candidate of context `c` (R62). -/
  | readAheadAdmission (c : Ctx)
  /-- The arbiter admits the first issuing line of context `c` (R86). -/
  | gatherLineAdmission (c : Ctx)
  /-- The oldest eligible Issue Queue entry is issued (R138). -/
  | issue
  /-- The memory side takes the placed request (R132). -/
  | memoryRequestTaken
  /-- A memory response is taken: its tag, status and data bytes (R133). -/
  | memoryResponse (t : MemTag) (status : MemStatus) (data : List Byte)
  /-- The time since the send of the request on tag `t` exceeds its limit (R145). -/
  | memoryTimeout (t : MemTag)
  /-- The age of the OPEN line of context `c` at address `line` reaches its limit (R80). -/
  | gatherAgeExpiry (c : Ctx) (line : BitVec 32)
  /-- The time that the head of context `c` has been held exceeds its limit (R105). -/
  | paceTimeout (c : Ctx)
  /-- MSEL# rises (R156). -/
  | frameEnd
  /-- A command byte that names no command completes (R154). -/
  | unknownCommand (code : Byte)
  /-- The command byte of IDENTIFY completes (R160). -/
  | identify
  /-- The byte that ends WRITE_DESC completes: the last byte of its last pair, or a refused byte (R157). -/
  | writeDesc (last : Byte)
  /-- READ_DESC's parameter byte, the index, completes (R7). -/
  | readDesc (index : Byte)
  /-- CLEAR_DESC's parameter byte, the index, completes (R6). -/
  | clearDesc (index : Byte)
  /-- SET_APERTURE's last parameter byte, ENABLED, completes (R119). -/
  | setAperture (enabled : Byte)
  /-- READ_APERTURE's parameter byte, the index, completes (R121). -/
  | readAperture (index : Byte)
  /-- QUEUE_WALK's last parameter byte, the descriptor index, completes (R26). -/
  | queueWalk (index : Byte)
  /-- END_WALK's parameter byte, the context, completes (R31). -/
  | endWalk (context : Byte)
  /-- ABORT_WALK's last parameter byte, the purge flag, completes (R32). -/
  | abortWalk (purge : Byte)
  /-- CLEAR_FAULT's parameter byte, the context, completes (R33). -/
  | clearFault (context : Byte)
  /-- FLUSH_LINES's parameter byte, the context, completes (R81). -/
  | flushLines (context : Byte)
  /-- READ_CONTEXT's parameter byte, the context, completes (R43). -/
  | readContext (context : Byte)
  /-- SET_PACING's last parameter byte, the high byte of LEAD_LIMIT, completes (R97). -/
  | setPacing (leadHigh : Byte)
  /-- CLEAR_PACING's parameter byte, the follower, completes (R98). -/
  | clearPacing (follower : Byte)
  /-- READ_PACING's parameter byte, the follower, completes (R99). -/
  | readPacing (follower : Byte)
  /-- SET_TIMERS's last parameter byte, the high byte of GATHER_AGE_US, completes (R163). -/
  | setTimers (gatherHigh : Byte)
  /-- The command byte of READ_TIMERS completes (R164). -/
  | readTimers
  /-- The command byte of POP_EVENT completes (R171). -/
  | popEvent
  /-- The command byte of PEEK_EVENT completes (R171). -/
  | peekEvent
  /-- The command byte of READ_EVENT_STATUS completes (R172). -/
  | readEventStatus
  /-- SET_ATTENTION_MASK's last parameter byte, the high byte of the mask, completes (R173). -/
  | setAttentionMask (maskHigh : Byte)
  /-- The command byte of SOFT_RESET completes (R165). -/
  | softReset
  /-- MSEL# falls (R153). -/
  | frameBegin
  /-- A byte that ends no command completes (R153). -/
  | linkByteComplete (b : Byte)
  deriving DecidableEq, Repr

end Sys2Proof
end

