-- ==== Sys2Proof/Config.lean ====
section
/-! DEFINITION. What an implementation of the JT2408 fixes, and the free values: what the spec leaves open
is an opaque constant, so that no proof can see it. -/

namespace Sys2Proof.Config

/-- The part identifier that IDENTIFY reports (R160, Table 44). -/
def partId : Nat := 0x2408

/-- The link address of strap value 0 (R152). -/
def linkBase : Byte := 0xA4

/-- Progress at which a walk ends with cause LIMIT, 2^48 − 1 (R25). -/
def progressLimit : Nat := 2 ^ 48 - 1

/-- FREE. The spec gives no order to the heads and requests that one SET_TIMERS finds expired (R163; records of
different blocks that happen together join in either order, R167). The expired items are taken by ascending rank;
the first argument counts the choices made so far, the second numbers the item. Log entry 8. -/
opaque expiryRank : Nat → Nat → Nat

/-- FREE. The spec gives no order between TRACKER_BLOCKED (R146) and the records that the origin of the same
timeout posts (R145). `true`: TRACKER_BLOCKED stands before them. The argument counts the choices made so far.
Log entry 9. -/
opaque blockedFirst : Nat → Bool

/-- FREE. The byte found at a position where the data of a request or response should carry a byte and carries
none (R113, R133: as many beats as the request carried). Log entry 10. -/
opaque absentByte : Nat → Byte

end Sys2Proof.Config
end

