-- ==== Sys2Proof/Machine/State.lean ====
section
/-! DEFINITION. The state of the JT2408 as plain data: every table, record, queue, register and pin level that
the spec names, its value after reset, and the queue of commands that wait. -/

namespace Sys2Proof.Machine

open Sys2Proof

/-! ### Descriptors (spec/01) -/

/-- Conversion modes (R1, Table 5). -/
inductive Conversion where
  | zero
  | sign
  | satUnsigned
  | satSigned
  deriving DecidableEq, Repr

/-- A descriptor record (R1, Table 5): the fields, and the written marks at the mark bits of Table 41. An
unwritten mandatory field holds what it reads back as, 0 (R2). -/
structure Descriptor where
  direction : Kind
  base : BitVec 32
  levels : Nat
  count : Vector Nat 4
  stride : Vector Int 4
  start : Vector Nat 4
  endless : Bool
  memWidth : Nat
  hostSize : Nat
  conversion : Conversion
  laneMask : BitVec 4
  chain : Option DescIx
  mark : Option Nat
  doneEvent : Bool
  readAhead : Nat
  marks : BitVec 24
  deriving DecidableEq, Repr

/-- The cleared state of a record (R2, Table 5). -/
def Descriptor.cleared : Descriptor where
  direction := .read
  base := 0
  levels := 0
  count := #v[0, 0, 0, 0]
  stride := #v[0, 0, 0, 0]
  start := #v[0, 0, 0, 0]
  endless := false
  memWidth := 0
  hostSize := 0
  conversion := .zero
  laneMask := 0xF
  chain := none
  mark := none
  doneEvent := false
  readAhead := 2
  marks := 0

/-! ### Apertures (spec/07) -/

/-- An aperture record (R118, Table 26). SIZE stands as its exponent, and exponent 0 stands for SIZE 0 (R178). -/
structure Aperture where
  base : BitVec 32
  sizeExp : Nat
  context : Ctx
  enabled : Bool
  deriving DecidableEq, Repr

/-- An aperture record after hardware reset (R118). -/
def Aperture.reset : Aperture := { base := 0, sizeExp := 0, context := 0, enabled := false }

/-! ### Reasons and events (spec/10, spec/11) -/

/-- Why a walk ended (R28). -/
inductive EndCause where
  | exhausted
  | ended
  | limit
  deriving DecidableEq, Repr

/-- Why a context entered FAULTED (R21). -/
inductive FaultReason where
  | launchRefused
  | writeFault
  | memoryTimeout
  deriving DecidableEq, Repr

/-- Why a launch was refused (R17, Table 7). -/
inductive RefusalReason where
  | unwritten
  | badStart
  | positions
  | laneMask
  | addressRange
  | apertureOverlap
  deriving DecidableEq, Repr

/-- Why a host transaction was answered FAULT (R128, Table 28). -/
inductive HostReason where
  | malformed
  | span
  | noWalk
  | contextFaulted
  | direction
  | align
  | overrun
  | ended
  | aborted
  | memory
  | memoryTimeout
  | paceTimeout
  | leaderLost
  deriving DecidableEq, Repr

/-- The one code space of reasons (R181, Table 46). -/
inductive Reason where
  | exhausted
  | ended
  | limit
  | launchRefused
  | writeFault
  | memoryTimeout
  | memory
  | aborted
  | unwritten
  | badStart
  | positions
  | laneMask
  | addressRange
  | apertureOverlap
  | malformed
  | span
  | noWalk
  | contextFaulted
  | direction
  | align
  | overrun
  | paceTimeout
  | leaderLost
  deriving DecidableEq, Repr

/-- The 14 kinds of event record (R168, Table 38). -/
inductive EventKind where
  | walkDone
  | mark
  | launchRefused
  | hostFault
  | readFault
  | writeFault
  | memoryTimeout
  | lateResponse
  | strayResponse
  | trackerBlocked
  | tagReuse
  | leaderLost
  | eventsLost
  | softResetDone
  deriving DecidableEq, Repr

/-- An event record (R167). -/
structure EventRecord where
  kind : EventKind
  timestamp : BitVec 32
  context : Option Ctx := none
  serial : Option (BitVec 16) := none
  descriptor : Option DescIx := none
  tag : Option HostTag := none
  address : Option Nat := none
  reason : Option Reason := none
  value : Option Nat := none
  deriving DecidableEq, Repr

/-! ### Spans, read-ahead entries and gather lines (spec/04, spec/05) -/

/-- A run of beats: the address of its first beat and their number (R55, R113). -/
structure Span where
  start : Nat
  beats : Nat
  deriving DecidableEq, Repr

/-- States of a read-ahead entry (R54, Table 19). The four data bytes are present when FILLED. -/
inductive EntryState where
  | pending
  | requested
  | requestedStale
  | filled (data : Vector Byte 4)
  | poisoned
  deriving DecidableEq, Repr

/-- A read-ahead entry (R54, Table 18). `seq` numbers the element within its walk from 0 and names the entry. -/
structure Entry where
  seq : Nat
  addr : Nat
  span : Span
  ordinal : Nat
  state : EntryState
  deriving DecidableEq, Repr

/-- States of a gather line (R76). -/
inductive LineState where
  | opened
  | issuing
  deriving DecidableEq, Repr

/-- A gather line (R76, Table 21). Bit i of `valid` is byte offset i. -/
structure GatherLine where
  slot : Fin 4
  addr : Nat
  valid : BitVec 32
  data : Vector Byte 32
  state : LineState
  openedAt : BitVec 32
  deriving DecidableEq, Repr

/-! ### Walk contexts (spec/02) -/

/-- Context states (Table 8). -/
inductive CtxState where
  | idle
  | active
  | draining
  | faulted
  deriving DecidableEq, Repr

/-- A walker position: the counters, or exhausted (R12, R13). Counters of levels not in use are 0. -/
inductive WalkPos where
  | at (c : Vector Nat 4)
  | exhausted
  deriving DecidableEq, Repr

/-- Head hold reasons (R39). -/
inductive Hold where
  | none
  | pace
  | lead
  | data
  | line
  | next
  deriving DecidableEq, Repr

/-- A closed byte range, as exact signed integers (R16). -/
structure Region where
  lo : Int
  hi : Int
  deriving DecidableEq, Repr

/-- A context record (R21, Table 9) with the Read-Ahead Queue (R54) and the gather lines (R76) of the context.
`lines` stands in opening order, `issuing` lists the slots of ISSUING lines in issuing order (R79).
`headChecked` tells whether the head has passed the head check of the running walk (R37); `shortfall` is the
shortfall at the last attempt of the element that waits for gather slots (R78; log entry 6), kept while a pacing hold
has taken that element back to step 1 (log entry 27), and 0 otherwise. -/
structure Context where
  state : CtxState
  snapshot : Option Descriptor
  descIndex : Option DescIx
  region : Option Region
  serial : BitVec 16
  take : WalkPos
  cursor : WalkPos
  progress : Nat
  passes : BitVec 32
  endCause : Option EndCause
  faultReason : Option FaultReason
  launchQ : List DescIx
  service : List HostTag
  hold : Hold
  holdStart : BitVec 32
  headChecked : Bool
  shortfall : Nat
  entries : List Entry
  lines : List GatherLine
  issuing : List (Fin 4)
  deriving DecidableEq, Repr

/-- A context after hardware reset (R22, R74, R92). -/
def Context.reset : Context where
  state := .idle
  snapshot := none
  descIndex := none
  region := none
  serial := 0
  take := .at #v[0, 0, 0, 0]
  cursor := .at #v[0, 0, 0, 0]
  progress := 0
  passes := 0
  endCause := none
  faultReason := none
  launchQ := []
  service := []
  hold := .none
  holdStart := 0
  headChecked := false
  shortfall := 0
  entries := []
  lines := []
  issuing := []

/-! ### Pacing links (spec/06) -/

/-- States of a pacing link (R95). -/
inductive LinkState where
  | armed
  | broken
  deriving DecidableEq, Repr

/-- A pacing link (R95, Table 24); the follower is its place in the table. -/
structure PacingLink where
  leader : Ctx
  gap : Nat
  lead : Option Nat
  state : LinkState
  deriving DecidableEq, Repr

/-! ### The Host Port (spec/07) -/

/-- The class of a transaction, set by classification (R116, R120). -/
inductive HostClass where
  | passthrough
  | walk (c : Ctx)
  deriving DecidableEq, Repr

/-- The status of a host response (R115). -/
inductive HostStatus where
  | okay
  | fault
  deriving DecidableEq, Repr

/-- What an answered transaction sends: its status and, for a read, its data (R115). -/
structure HostAnswer where
  status : HostStatus
  data : List Byte
  deriving DecidableEq, Repr

/-- A slot of the Host Transaction Table that holds a transaction (R116). It is OPEN while `answer` is none and
ANSWERED after that. `cls` is none for a request answered before its classification. `count` is the element
count of the latest head check. -/
structure HostSlot where
  req : HostRequest
  cls : Option HostClass
  count : Option Nat
  taken : Nat
  readData : List Byte
  poisoned : Bool
  answer : Option HostAnswer
  deriving DecidableEq, Repr

/-- A request in the passthrough FIFO: its tag, and the gather lines it waits for, each named by its context and
its slot (R82, R125). -/
structure FifoEntry where
  tag : HostTag
  waitSet : List (Ctx × Fin 4)
  deriving DecidableEq, Repr

/-! ### The ordering machinery (spec/08) -/

/-- Where an answer from memory goes (R135, Table 31). -/
inductive Origin where
  | host (t : HostTag)
  | readAhead (c : Ctx) (serial : BitVec 16) (entry : Nat)
  | gather (c : Ctx) (serial : BitVec 16) (line : Nat)
  deriving DecidableEq, Repr

/-- An Issue Queue entry (R135, Table 31). -/
structure IqEntry where
  kind : Kind
  span : Span
  data : List Byte
  strobes : List Bool
  origin : Origin
  detached : Bool
  deriving DecidableEq, Repr

/-- States of a tracker entry (R140). -/
inductive TrackState where
  | inFlight
  | quarantined
  deriving DecidableEq, Repr

/-- A Memory Tracker entry (R140, Table 32); the memory tag is its place in the table. -/
structure TrackEntry where
  kind : Kind
  span : Span
  origin : Origin
  detached : Bool
  state : TrackState
  sent : BitVec 32
  deriving DecidableEq, Repr

/-- A request placed on the Memory Port (R132, Table 30). -/
structure MemRequest where
  kind : Kind
  address : Nat
  beats : Nat
  tag : MemTag
  data : List Byte
  strobes : List Bool
  deriving DecidableEq, Repr

/-! ### The Management Link (spec/09) -/

/-- Frame phases (R153, Table 33). -/
inductive Phase where
  | idle
  | address
  | ignored
  | command
  | parameters
  | response
  deriving DecidableEq, Repr

/-- The fields that a WRITE_DESC pair can name (R179, Table 41). -/
inductive Field where
  | direction
  | base
  | levels
  | count (k : Fin 4)
  | stride (k : Fin 4)
  | start (k : Fin 4)
  | memWidth
  | hostSize
  | conversion
  | laneMask
  | endless
  | chain
  | mark
  | doneEvent
  | readAhead
  deriving DecidableEq, Repr

/-- The frame record (R153). -/
structure Frame where
  phase : Phase
  count : Nat
  code : Option Byte
  params : List Byte
  response : List Byte
  desc : Option DescIx
  pairs : Option Nat
  applied : Nat
  field : Option Field
  value : List Byte
  deriving DecidableEq, Repr

/-- The frame record that holds nothing, in phase IDLE (R153, R156). -/
def Frame.idle : Frame where
  phase := .idle
  count := 0
  code := none
  params := []
  response := []
  desc := none
  pairs := none
  applied := 0
  field := none
  value := []

/-- The settings record (R161, Table 36). -/
structure Settings where
  clockMhz : Nat
  memTimeoutUs : Nat
  paceLimitUs : Nat
  gatherAgeUs : Nat
  deriving DecidableEq, Repr

/-- The settings after hardware reset (R161). -/
def Settings.reset : Settings :=
  { clockMhz := 100, memTimeoutUs := 2000, paceLimitUs := 50000, gatherAgeUs := 64 }

/-! ### The machine -/

/-- The whole state. `rstLow` and `mselLow` are the levels of RST# and MSEL#; `usLength` is the number of CLK
periods of the microsecond in progress (R162); `choices` counts the free choices made (the model's own, log
entries 8 and 9); `pending` is the queue of commands, first in, first out. -/
structure State where
  rstLow : Bool
  mselLow : Bool
  strap : BitVec 2
  link : Frame
  settings : Settings
  timebase : BitVec 32
  usLength : Nat
  descs : Vector Descriptor 64
  apertures : Vector Aperture 8
  ctx : Vector Context 8
  links : Vector (Option PacingLink) 8
  slots : Vector (Option HostSlot) 16
  responses : List HostTag
  fifo : List FifoEntry
  iq : List IqEntry
  pointer : Fin 17
  tracker : Vector (Option TrackEntry) 32
  channel : Option MemRequest
  events : List EventRecord
  loss : Nat
  mask : BitVec 14
  choices : Nat
  pending : List Instr
  deriving DecidableEq, Repr

/-- The machine right after hardware reset, RST# just released with both LADDR pins low (R2, R22, R74, R92, R95,
R118, R129, R148, R153, R161, R162, R175). DESIGN CHOICE, log entries 1 and 14: RST# high, strap 0, MSEL# high. -/
def State.reset : State where
  rstLow := false
  mselLow := false
  strap := 0
  link := .idle
  settings := .reset
  timebase := 0
  usLength := 100
  descs := Vector.replicate 64 .cleared
  apertures := Vector.replicate 8 .reset
  ctx := Vector.replicate 8 .reset
  links := Vector.replicate 8 none
  slots := Vector.replicate 16 none
  responses := []
  fifo := []
  iq := []
  pointer := 0
  tracker := Vector.replicate 32 none
  channel := none
  events := []
  loss := 0
  mask := 0x3FFF
  choices := 0
  pending := []

/-- Why a step would stop with a fault. The spec has no event that stops the part, so there is no constructor:
no command faults (INVENTORY, Faults). -/
inductive Fault where
  deriving DecidableEq, Repr

/-- Why a step would be refused. -/
inductive Refusal where
  /-- Raised by `exec` alone, for a command that has no meaning yet; safe. No arm raises it. -/
  | notModelled (mnemonic : String)
  deriving DecidableEq, Repr

/-- The outcome of a command. -/
abbrev Result := Host.Outcome State Fault Refusal

/-! ### Reading and writing the tables -/

/-- The record of context `c`. -/
def State.context (s : State) (c : Ctx) : Context := s.ctx.get c

/-- `s` with the record of context `c` replaced. -/
def State.setContext (s : State) (c : Ctx) (x : Context) : State := { s with ctx := s.ctx.set c x }

/-- `s` with the record of every context rewritten. -/
def State.mapContexts (s : State) (f : Ctx → Context → Context) : State :=
  { s with ctx := Vector.ofFn fun c => f c (s.context c) }

/-- The descriptor record at index `i`. -/
def State.desc (s : State) (i : DescIx) : Descriptor := s.descs.get i

/-- `s` with the descriptor record at `i` replaced. -/
def State.setDesc (s : State) (i : DescIx) (d : Descriptor) : State := { s with descs := s.descs.set i d }

/-- The aperture record at index `i`. -/
def State.aperture (s : State) (i : ApIx) : Aperture := s.apertures.get i

/-- `s` with the aperture record at `i` replaced. -/
def State.setAperture (s : State) (i : ApIx) (a : Aperture) : State := { s with apertures := s.apertures.set i a }

/-- The pacing link whose follower is `f`, if there is one. -/
def State.pacing (s : State) (f : Ctx) : Option PacingLink := s.links.get f

/-- `s` with the pacing link of follower `f` replaced. -/
def State.setPacing (s : State) (f : Ctx) (l : Option PacingLink) : State := { s with links := s.links.set f l }

/-- The Host Transaction Table slot of tag `t`: none when free. -/
def State.slot (s : State) (t : HostTag) : Option HostSlot := s.slots.get t

/-- `s` with the slot of tag `t` replaced. -/
def State.setSlot (s : State) (t : HostTag) (x : Option HostSlot) : State := { s with slots := s.slots.set t x }

/-- The Memory Tracker entry of tag `t`: none when the tag is free. -/
def State.track (s : State) (t : MemTag) : Option TrackEntry := s.tracker.get t

/-- `s` with the tracker entry of tag `t` replaced. -/
def State.setTrack (s : State) (t : MemTag) (x : Option TrackEntry) : State :=
  { s with tracker := s.tracker.set t x }

end Sys2Proof.Machine
end

