-- ==== Sys2Proof/Machine/Operands.lean ====
section
/-! DEFINITION. Operand forms: byte order, command codes and parameter lengths, field identifiers, status, kind
and reason codes, and the byte layouts of the replies (spec/11). -/

namespace Sys2Proof.Machine

open Sys2Proof

/-! ### Byte order (R176) -/

/-- The `n` low bytes of `v`, lowest first (R176). -/
def encodeLE : Nat → Nat → List Byte
  | 0, _ => []
  | n + 1, v => BitVec.ofNat 8 (v % 256) :: encodeLE n (v / 256)

/-- The number that little-endian bytes spell (R176). -/
def decodeLE : List Byte → Nat
  | [] => 0
  | b :: bs => b.toNat + 256 * decodeLE bs

/-- A number of `w` bytes read as two's complement (R46, R176). -/
def signedOf (w v : Nat) : Int := if v < 2 ^ (8 * w - 1) then (v : Int) else (v : Int) - 2 ^ (8 * w)

/-- The two's-complement code of `v` in `w` bytes (R46, R176). -/
def unsignedOf (w : Nat) (v : Int) : Nat := (v % 2 ^ (8 * w)).toNat

/-- Parameter byte `i` as a number. -/
def argByte (ps : List Byte) (i : Nat) : Nat := (ps.getD i 0).toNat

/-- The parameter of `n` bytes at offset `i` (Table 40). -/
def argLE (ps : List Byte) (i n : Nat) : Nat := decodeLE ((ps.drop i).take n)

/-- An index parameter below `n`, or none (R178). -/
def indexOf (n v : Nat) : Option (Fin n) := if h : v < n then some ⟨v, h⟩ else none

/-! ### Commands (R154, R177, Table 40) -/

/-- The 22 management commands (Table 35). -/
inductive Command where
  | identify
  | writeDesc
  | readDesc
  | clearDesc
  | setAperture
  | readAperture
  | queueWalk
  | endWalk
  | abortWalk
  | clearFault
  | flushLines
  | readContext
  | setPacing
  | clearPacing
  | readPacing
  | setTimers
  | readTimers
  | popEvent
  | peekEvent
  | readEventStatus
  | setAttentionMask
  | softReset
  deriving DecidableEq, Repr

/-- Command codes (Table 40). -/
def Command.code : Command → Byte
  | .identify => 0x01
  | .writeDesc => 0x10
  | .readDesc => 0x11
  | .clearDesc => 0x12
  | .setAperture => 0x18
  | .readAperture => 0x19
  | .queueWalk => 0x20
  | .endWalk => 0x21
  | .abortWalk => 0x22
  | .clearFault => 0x23
  | .flushLines => 0x24
  | .readContext => 0x25
  | .setPacing => 0x30
  | .clearPacing => 0x31
  | .readPacing => 0x32
  | .setTimers => 0x38
  | .readTimers => 0x39
  | .popEvent => 0x40
  | .peekEvent => 0x41
  | .readEventStatus => 0x42
  | .setAttentionMask => 0x43
  | .softReset => 0x7E

/-- Every command. -/
def Command.all : List Command :=
  [.identify, .writeDesc, .readDesc, .clearDesc, .setAperture, .readAperture, .queueWalk, .endWalk, .abortWalk,
    .clearFault, .flushLines, .readContext, .setPacing, .clearPacing, .readPacing, .setTimers, .readTimers,
    .popEvent, .peekEvent, .readEventStatus, .setAttentionMask, .softReset]

/-- The command that a code names, if it names one (R154). -/
def Command.ofCode (b : Byte) : Option Command := Command.all.find? fun c => c.code == b

/-- The number of parameter bytes of a command (Table 40); none for WRITE_DESC, whose parameters set its length
(R154, R157). -/
def Command.paramLen : Command → Option Nat
  | .writeDesc => none
  | .identify | .readTimers | .popEvent | .peekEvent | .readEventStatus | .softReset => some 0
  | .readDesc | .clearDesc | .readAperture | .endWalk | .clearFault | .flushLines | .readContext
  | .clearPacing | .readPacing => some 1
  | .queueWalk | .abortWalk | .setAttentionMask => some 2
  | .setPacing => some 6
  | .setAperture | .setTimers => some 8

/-- Link statuses (Table 34). -/
inductive Status where
  | ok
  | unknownCommand
  | badIndex
  | badValue
  | queueFull
  | overlap
  | inUse
  | loop
  | limit
  | state
  | empty
  deriving DecidableEq, Repr

/-- Status codes (Table 39). -/
def Status.code : Status → Byte
  | .ok => 0x01
  | .unknownCommand => 0x02
  | .badIndex => 0x03
  | .badValue => 0x04
  | .queueFull => 0x05
  | .overlap => 0x06
  | .inUse => 0x07
  | .loop => 0x08
  | .limit => 0x09
  | .state => 0x0A
  | .empty => 0x0B

/-! ### Reasons and event kinds (R181, Table 46) -/

def EndCause.toReason : EndCause → Reason
  | .exhausted => .exhausted
  | .ended => .ended
  | .limit => .limit

def FaultReason.toReason : FaultReason → Reason
  | .launchRefused => .launchRefused
  | .writeFault => .writeFault
  | .memoryTimeout => .memoryTimeout

def RefusalReason.toReason : RefusalReason → Reason
  | .unwritten => .unwritten
  | .badStart => .badStart
  | .positions => .positions
  | .laneMask => .laneMask
  | .addressRange => .addressRange
  | .apertureOverlap => .apertureOverlap

def HostReason.toReason : HostReason → Reason
  | .malformed => .malformed
  | .span => .span
  | .noWalk => .noWalk
  | .contextFaulted => .contextFaulted
  | .direction => .direction
  | .align => .align
  | .overrun => .overrun
  | .ended => .ended
  | .aborted => .aborted
  | .memory => .memory
  | .memoryTimeout => .memoryTimeout
  | .paceTimeout => .paceTimeout
  | .leaderLost => .leaderLost

/-- Reason codes (Table 46). -/
def Reason.code : Reason → Byte
  | .exhausted => 0x01
  | .ended => 0x02
  | .limit => 0x03
  | .launchRefused => 0x04
  | .writeFault => 0x05
  | .memoryTimeout => 0x06
  | .memory => 0x07
  | .aborted => 0x08
  | .unwritten => 0x10
  | .badStart => 0x11
  | .positions => 0x12
  | .laneMask => 0x13
  | .addressRange => 0x14
  | .apertureOverlap => 0x15
  | .malformed => 0x20
  | .span => 0x21
  | .noWalk => 0x22
  | .contextFaulted => 0x23
  | .direction => 0x24
  | .align => 0x25
  | .overrun => 0x26
  | .paceTimeout => 0x27
  | .leaderLost => 0x28

/-- The mask bit of an event kind; its code is one more (Table 46). -/
def EventKind.maskBit : EventKind → Nat
  | .walkDone => 0
  | .mark => 1
  | .launchRefused => 2
  | .hostFault => 3
  | .readFault => 4
  | .writeFault => 5
  | .memoryTimeout => 6
  | .lateResponse => 7
  | .strayResponse => 8
  | .trackerBlocked => 9
  | .tagReuse => 10
  | .leaderLost => 11
  | .eventsLost => 12
  | .softResetDone => 13

/-- Event kind codes (Table 46). -/
def EventKind.code (k : EventKind) : Byte := BitVec.ofNat 8 (k.maskBit + 1)

/-! ### Descriptor fields (R179, Tables 41 and 42) -/

/-- The field that an identifier names, if it names one (Table 41). -/
def Field.ofId (b : Byte) : Option Field :=
  let v := b.toNat
  if v = 0x01 then some .direction
  else if v = 0x02 then some .base
  else if v = 0x03 then some .levels
  else if 0x10 ≤ v ∧ v < 0x14 then some (.count (Fin.ofNat 4 (v - 0x10)))
  else if 0x14 ≤ v ∧ v < 0x18 then some (.stride (Fin.ofNat 4 (v - 0x14)))
  else if 0x18 ≤ v ∧ v < 0x1C then some (.start (Fin.ofNat 4 (v - 0x18)))
  else if v = 0x20 then some .memWidth
  else if v = 0x21 then some .hostSize
  else if v = 0x22 then some .conversion
  else if v = 0x23 then some .laneMask
  else if v = 0x28 then some .endless
  else if v = 0x30 then some .chain
  else if v = 0x31 then some .mark
  else if v = 0x33 then some .doneEvent
  else if v = 0x34 then some .readAhead
  else none

/-- The width of a field's value in bytes (Table 41). -/
def Field.width : Field → Nat
  | .base | .stride _ | .mark => 4
  | .count _ | .start _ => 2
  | _ => 1

/-- The mark bit of a field (Table 41). -/
def Field.markBit : Field → Nat
  | .direction => 0
  | .base => 1
  | .levels => 2
  | .count k => 3 + k
  | .stride k => 7 + k
  | .start k => 11 + k
  | .memWidth => 15
  | .hostSize => 16
  | .conversion => 17
  | .laneMask => 18
  | .endless => 19
  | .chain => 20
  | .mark => 21
  | .doneEvent => 22
  | .readAhead => 23

/-- The mode that a CONVERSION code names (Table 41). -/
def Conversion.ofCode : Nat → Option Conversion
  | 0 => some .zero
  | 1 => some .sign
  | 2 => some .satUnsigned
  | 3 => some .satSigned
  | _ => none

/-- CONVERSION codes (Table 41). -/
def Conversion.code : Conversion → Nat
  | .zero => 0
  | .sign => 1
  | .satUnsigned => 2
  | .satSigned => 3

/-- DIRECTION codes (Table 41). -/
def kindCode : Kind → Nat
  | .read => 0
  | .write => 1

/-- The record with the field set to the value that number `v` encodes, its mark apart; none when the value is
not one of those that R4, Table 6 accepts for the field. -/
def Descriptor.put (d : Descriptor) (f : Field) (v : Nat) : Option Descriptor :=
  match f with
  | .direction =>
    if v = 0 then some { d with direction := .read } else if v = 1 then some { d with direction := .write } else none
  | .base => some { d with base := BitVec.ofNat 32 v }
  | .levels => if 1 ≤ v ∧ v ≤ 4 then some { d with levels := v } else none
  | .count k => if 1 ≤ v then some { d with count := d.count.set k v } else none
  | .stride k =>
    if -16777216 ≤ signedOf 4 v ∧ signedOf 4 v ≤ 16777215 then some { d with stride := d.stride.set k (signedOf 4 v) }
    else none
  | .start k => some { d with start := d.start.set k v }
  | .memWidth => if 1 ≤ v ∧ v ≤ 4 then some { d with memWidth := v } else none
  | .hostSize => if v = 1 ∨ v = 2 ∨ v = 4 then some { d with hostSize := v } else none
  | .conversion => (Conversion.ofCode v).map fun m => { d with conversion := m }
  | .laneMask => if 1 ≤ v ∧ v ≤ 15 then some { d with laneMask := BitVec.ofNat 4 v } else none
  | .endless => if v ≤ 1 then some { d with endless := v == 1 } else none
  | .chain => if v = 0xFF then some { d with chain := none } else (indexOf 64 v).map fun i => { d with chain := some i }
  | .mark => some { d with mark := if v = 0xFFFFFFFF then none else some v }
  | .doneEvent => if v ≤ 1 then some { d with doneEvent := v == 1 } else none
  | .readAhead => if v ≤ 8 then some { d with readAhead := v } else none

/-- Whether a field's written mark is set (R1). -/
def Descriptor.written (d : Descriptor) (f : Field) : Bool := d.marks.getLsbD f.markBit

/-- The record after a pair is applied: the field takes the value and its mark is set; none when the pair is
refused (R3). -/
def Descriptor.write (d : Descriptor) (f : Field) (bytes : List Byte) : Option Descriptor :=
  (d.put f (decodeLE bytes)).map fun x => { x with marks := x.marks ||| BitVec.ofNat 24 (2 ^ f.markBit) }

/-- The 54 reply bytes of READ_DESC (R7, Table 42). -/
def Descriptor.report (d : Descriptor) : List Byte :=
  encodeLE 4 d.marks.toNat ++ encodeLE 1 (kindCode d.direction) ++ encodeLE 4 d.base.toNat ++ encodeLE 1 d.levels
    ++ ([0, 1, 2, 3] : List (Fin 4)).flatMap (fun k => encodeLE 2 (d.count.get k))
    ++ ([0, 1, 2, 3] : List (Fin 4)).flatMap (fun k => encodeLE 4 (unsignedOf 4 (d.stride.get k)))
    ++ ([0, 1, 2, 3] : List (Fin 4)).flatMap (fun k => encodeLE 2 (d.start.get k))
    ++ encodeLE 1 d.memWidth ++ encodeLE 1 d.hostSize ++ encodeLE 1 d.conversion.code
    ++ encodeLE 1 d.laneMask.toNat ++ encodeLE 1 d.endless.toNat
    ++ encodeLE 1 (match d.chain with | none => 0xFF | some i => i)
    ++ encodeLE 4 (d.mark.getD 0xFFFFFFFF) ++ encodeLE 1 d.doneEvent.toNat ++ encodeLE 1 d.readAhead

/-! ### The other replies (Tables 40, 44, 45) -/

/-- SIZE of an aperture (R118, R178). -/
def Aperture.size (a : Aperture) : Nat := if a.sizeExp = 0 then 0 else 2 ^ a.sizeExp

/-- The seven reply bytes of READ_APERTURE (R121, Table 40). -/
def Aperture.report (a : Aperture) : List Byte :=
  encodeLE 4 a.base.toNat ++ encodeLE 1 a.sizeExp ++ encodeLE 1 a.context ++ encodeLE 1 a.enabled.toNat

/-- One presence bit of an event record (Table 45). -/
def presence {α : Type} (k : Nat) (x : Option α) : Nat := if x.isSome then 2 ^ k else 0

/-- The 22 reply bytes of POP_EVENT and PEEK_EVENT (R181, Table 45). -/
def EventRecord.report (e : EventRecord) : List Byte :=
  [e.kind.code]
    ++ encodeLE 1 (presence 0 e.context + presence 1 e.serial + presence 2 e.descriptor + presence 3 e.tag
      + presence 4 e.address + presence 5 e.reason + presence 6 e.value)
    ++ encodeLE 4 e.timestamp.toNat ++ encodeLE 1 ((e.context.map Fin.val).getD 0)
    ++ encodeLE 2 ((e.serial.map BitVec.toNat).getD 0) ++ encodeLE 1 ((e.descriptor.map Fin.val).getD 0)
    ++ encodeLE 1 ((e.tag.map Fin.val).getD 0) ++ encodeLE 4 (e.address.getD 0)
    ++ [(e.reason.map Reason.code).getD 0] ++ encodeLE 6 (e.value.getD 0)

/-- The settings in the layout that SET_TIMERS and READ_TIMERS share (Table 40). -/
def Settings.report (t : Settings) : List Byte :=
  encodeLE 1 t.clockMhz ++ encodeLE 2 t.memTimeoutUs ++ encodeLE 3 t.paceLimitUs ++ encodeLE 2 t.gatherAgeUs

/-- Context state codes (Table 43). -/
def CtxState.code : CtxState → Nat
  | .idle => 0
  | .active => 1
  | .draining => 2
  | .faulted => 3

/-- Hold reason codes (Table 43). -/
def Hold.code : Hold → Nat
  | .none => 0
  | .pace => 1
  | .lead => 2
  | .data => 3
  | .line => 4
  | .next => 5

/-- The take position as READ_CONTEXT reports it: levels not in use and an exhausted position read 0 (R43). -/
def Context.takeReport (x : Context) (k : Fin 4) : Nat :=
  match x.take with
  | .exhausted => 0
  | .at c => if k.val < ((x.snapshot.map Descriptor.levels).getD 4) then c.get k else 0

/-- The 42 reply bytes of READ_CONTEXT (R43, Table 43). `head` is the host tag of the head, with the elements it
has taken and still needs. -/
def Context.report (x : Context) (head : Option (HostTag × Nat × Nat)) : List Byte :=
  encodeLE 1 x.state.code ++ encodeLE 1 ((x.descIndex.map Fin.val).getD 0xFF) ++ encodeLE 2 x.serial.toNat
    ++ encodeLE 1 ((x.snapshot.map fun d => kindCode d.direction).getD 0xFF)
    ++ ([0, 1, 2, 3] : List (Fin 4)).flatMap (fun k => encodeLE 2 (x.takeReport k))
    ++ encodeLE 1 (x.take == .exhausted).toNat ++ encodeLE 6 x.progress ++ encodeLE 4 x.passes.toNat
    ++ [(x.endCause.map fun r => r.toReason.code).getD 0] ++ [(x.faultReason.map fun r => r.toReason.code).getD 0]
    ++ encodeLE 1 x.launchQ.length
    ++ ([0, 1, 2, 3] : List Nat).flatMap (fun k => encodeLE 1 ((x.launchQ[k]?.map Fin.val).getD 0xFF))
    ++ encodeLE 1 x.service.length ++ encodeLE 1 ((head.map fun h => h.1.val).getD 0xFF)
    ++ encodeLE 1 ((head.map fun h => h.2.1).getD 0) ++ encodeLE 1 ((head.map fun h => h.2.2).getD 0)
    ++ encodeLE 1 x.hold.code ++ encodeLE 4 x.holdStart.toNat ++ encodeLE 1 x.entries.length
    ++ encodeLE 1 x.lines.length

end Sys2Proof.Machine
end

