-- ==== Sys2Proof/Machine/Walker.lean ====
section
/-! DEFINITION. The walker arithmetic and the launch checks (spec/01), and the element conversion (spec/03). -/

namespace Sys2Proof.Machine

open Sys2Proof

/-! ### Positions and addresses (R9 to R14) -/

/-- The levels in use, innermost first: 0 to LEVELS − 1 (R9). -/
def Descriptor.dims (d : Descriptor) : List (Fin 4) := ([0, 1, 2, 3] : List (Fin 4)).filter fun k => k.val < d.levels

/-- N, the number of positions in one pass (R10). -/
def Descriptor.positions (d : Descriptor) : Nat := (d.dims.map fun k => d.count.get k).prod

/-- The weight of level `k` in the ordinal, the product of the counts below it (R10). -/
def Descriptor.weight (d : Descriptor) (k : Fin 4) : Nat :=
  ((d.dims.filter fun j => j.val < k.val).map fun j => d.count.get j).prod

/-- The position ordinal of a position (R10). -/
def Descriptor.ordinal (d : Descriptor) (c : Vector Nat 4) : Nat := (d.dims.map fun k => c.get k * d.weight k).sum

/-- The start ordinal (R10). -/
def Descriptor.startOrdinal (d : Descriptor) : Nat := d.ordinal d.start

/-- The element address of a position, an exact signed integer (R9). -/
def Descriptor.address (d : Descriptor) (c : Vector Nat 4) : Int :=
  (d.base.toNat : Int) + (d.dims.map fun k => d.stride.get k * (c.get k : Int)).sum

/-- The start position: START_k at each level in use, 0 elsewhere (R11). -/
def Descriptor.startPos (d : Descriptor) : WalkPos :=
  .at (Vector.ofFn fun k : Fin 4 => if k.val < d.levels then d.start.get k else 0)

/-- The carry of R12 from the given levels outward: the counters, and whether a carry leaves the outermost level. -/
def Descriptor.carry (d : Descriptor) : List (Fin 4) → Vector Nat 4 → Vector Nat 4 × Bool
  | [], c => (c, true)
  | k :: ks, c =>
    if c.get k + 1 = d.count.get k then d.carry ks (c.set k 0) else (c.set k (c.get k + 1), false)

/-- One advance of a walker position: the position after it, and whether an endless walk wrapped to ordinal 0
(R12, R13, R14). -/
def Descriptor.advance (d : Descriptor) (c : Vector Nat 4) : WalkPos × Bool :=
  match d.carry d.dims c with
  | (c', false) => (.at c', false)
  | (c', true) => if d.endless then (.at c', true) else (.exhausted, false)

/-! ### The target region and the launch checks (R16 to R20) -/

/-- The extent of level `k`, STRIDE_k × (COUNT_k − 1) (R16). -/
def Descriptor.extent (d : Descriptor) (k : Fin 4) : Int := d.stride.get k * ((d.count.get k : Int) - 1)

/-- The target region (R16). -/
def Descriptor.region (d : Descriptor) : Region where
  lo := (d.base.toNat : Int) + (d.dims.map fun k => min 0 (d.extent k)).sum
  hi := (d.base.toNat : Int) + (d.dims.map fun k => max 0 (d.extent k)).sum + (d.memWidth : Int) - 1

/-- Two closed ranges have a byte in common. -/
def Region.meets (a b : Region) : Bool := a.lo ≤ b.hi && b.lo ≤ a.hi

/-- The byte range that an aperture covers (R118); empty while SIZE is 0. -/
def Aperture.range (a : Aperture) : Region where
  lo := (a.base.toNat : Int)
  hi := (a.base.toNat : Int) + (a.size : Int) - 1

/-- Every mandatory field is written (R17, R18). -/
def Descriptor.mandatoryWritten (d : Descriptor) : Bool :=
  d.written .direction && d.written .base && d.written .levels && d.written .memWidth && d.written .hostSize
    && d.dims.all fun k => d.written (.count k) && d.written (.stride k)

/-- Every lane of LANE_MASK is below MEM_WIDTH (R19). -/
def Descriptor.lanesFit (d : Descriptor) : Bool :=
  ([0, 1, 2, 3] : List Nat).all fun j => !d.laneMask.getLsbD j || j < d.memWidth

/-- The target region lies within the 32-bit address space (R19). -/
def Descriptor.regionFits (d : Descriptor) : Bool := 0 ≤ d.region.lo && d.region.hi ≤ 0xFFFFFFFF

/-- The apertures in ascending order. -/
def State.apertureList (s : State) : List Aperture := (List.finRange 8).map s.aperture

/-- The region overlaps an enabled aperture (R20). -/
def State.meetsAperture (s : State) (r : Region) : Bool := s.apertureList.any fun a => a.enabled && r.meets a.range

/-- The launch checks in the order of Table 7: the reason of the first that fails, or none (R17). -/
def State.launchCheck (s : State) (d : Descriptor) : Option RefusalReason :=
  if !d.mandatoryWritten then some .unwritten
  else if !(d.dims.all fun k => d.start.get k < d.count.get k) then some .badStart
  else if d.positions > 2 ^ 32 - 1 then some .positions
  else if !d.lanesFit then some .laneMask
  else if !d.regionFits then some .addressRange
  else if s.meetsAperture d.region then some .apertureOverlap
  else none

/-! ### Element conversion (spec/03) -/

/-- The width conversion of R48, from `src` bytes to `dst` bytes. -/
def convertWidth (m : Conversion) (src dst v : Nat) : Nat :=
  if src ≤ dst then
    match m with
    | .zero | .satUnsigned => v
    | .sign | .satSigned => unsignedOf dst (signedOf src v)
  else
    match m with
    | .zero | .sign => v % 2 ^ (8 * dst)
    | .satUnsigned => min v (2 ^ (8 * dst) - 1)
    | .satSigned => unsignedOf dst (max (-2 ^ (8 * dst - 1)) (min (signedOf src v) (2 ^ (8 * dst - 1) - 1)))

/-- The lanes of an element, 0 to Wm − 1. -/
def Descriptor.lanes (d : Descriptor) : List (Fin 4) := ([0, 1, 2, 3] : List (Fin 4)).filter fun j => j.val < d.memWidth

/-- The lanes that the lane mask keeps (R47, R51). -/
def Descriptor.keptLanes (d : Descriptor) : List (Fin 4) := d.lanes.filter fun j : Fin 4 => d.laneMask.getLsbD j.val

/-- The memory value of a read element after the lane mask (R47). -/
def Descriptor.maskedValue (d : Descriptor) (data : Vector Byte 4) : Nat :=
  decodeLE (d.lanes.map fun j : Fin 4 => if d.laneMask.getLsbD j.val then data.get j else 0)

/-- The host bytes of a read element (R48, R49). -/
def Descriptor.hostBytes (d : Descriptor) (data : Vector Byte 4) : List Byte :=
  encodeLE d.hostSize (convertWidth d.conversion d.memWidth d.hostSize (d.maskedValue data))

/-- The memory bytes of a write element at address `addr`, each with its byte address, in ascending lane order
(R50, R51). -/
def Descriptor.memoryBytes (d : Descriptor) (addr : Nat) (host : List Byte) : List (Nat × Byte) :=
  let bytes := encodeLE d.memWidth (convertWidth d.conversion d.hostSize d.memWidth (decodeLE host))
  d.keptLanes.map fun j : Fin 4 => (addr + j.val, bytes.getD j 0)

end Sys2Proof.Machine
end

