-- ==== Sys2Proof/Machine/Flags.lean ====
section
/-! DEFINITION. Conditions and views over the state: overlaps and hazards, which elements wait and why, which
requests may be admitted or issued, which timers have run out, and the output pins. Nothing here changes the state. -/

namespace Sys2Proof.Machine

open Sys2Proof

/-! ### Output pins and ports -/

/-- The byte that MDO carries in the byte position in progress; none when it is not driven (R151, R153). -/
def Frame.mdo (f : Frame) : Option Byte :=
  match f.phase with
  | .idle | .address | .ignored => none
  | .command | .parameters => some 0
  | .response => some (f.response.headD 0)

/-- The link address (R152). -/
def State.linkAddress (s : State) : Byte := Config.linkBase + s.strap.setWidth 8

/-- The kind of a record is enabled in the attention mask (R173). -/
def State.enabled (s : State) (e : EventRecord) : Bool := s.mask.getLsbD e.kind.maskBit

/-- The number of records whose kind is enabled (R172). -/
def State.enabledRecords (s : State) : Nat := s.events.countP s.enabled

/-- ATTN# is driven low (R174). -/
def State.attnLow (s : State) : Bool := s.events.any s.enabled

/-- The response that the response channel offers: the first of the response order (R115). -/
def State.hostResponse (s : State) : Option (HostTag × HostAnswer) :=
  match s.responses with
  | [] => none
  | t :: _ => ((s.slot t).bind HostSlot.answer).map fun a => (t, a)

/-! ### Beats, spans and overlaps (R56, R113, R134) -/

/-- The address of the beat that holds a byte. -/
def beatOf (a : Nat) : Nat := a - a % 4

/-- Two spans have a beat in common (R134). -/
def Span.overlaps (a b : Span) : Bool :=
  0 < a.beats && 0 < b.beats && a.start < b.start + 4 * b.beats && b.start < a.start + 4 * a.beats

/-- The span of an element of `w` bytes (R55). -/
def elementSpan (addr w : Nat) : Span := { start := beatOf addr, beats := if addr % 4 + w ≤ 4 then 1 else 2 }

/-- The line address of a byte (R77). -/
def lineOf (a : Nat) : Nat := a - a % 32

/-- The byte offsets of a line's valid set, ascending. -/
def GatherLine.offsets (l : GatherLine) : List Nat := (List.range 32).filter fun i => l.valid.getLsbD i

/-- The write range of a line: from the first to the last beat that holds a valid byte; no beat for a line without
one (R56, R76). -/
def GatherLine.span (l : GatherLine) : Span :=
  match l.offsets.head?, l.offsets.getLast? with
  | some a, some b => { start := l.addr + 4 * (a / 4), beats := b / 4 - a / 4 + 1 }
  | _, _ => { start := l.addr, beats := 0 }

/-- Two requests form a hazard (R134). -/
def hazard (k₁ : Kind) (s₁ : Span) (k₂ : Kind) (s₂ : Span) : Bool := (k₁ == .write || k₂ == .write) && s₁.overlaps s₂

end Sys2Proof.Machine

namespace Sys2Proof

open Sys2Proof.Machine

/-! ### Host requests (R113, R122, R123) -/

/-- The number of addressed bytes of a request (R113). -/
def HostRequest.length (r : HostRequest) : Nat := if r.beats = 1 then r.size else 4 * r.beats

/-- The byte range of a request (R113). -/
def HostRequest.range (r : HostRequest) : Region where
  lo := (r.address.toNat : Int)
  hi := (r.address.toNat : Int) + (r.length : Int) - 1

/-- The span of a request (R113). -/
def HostRequest.span (r : HostRequest) : Span := { start := beatOf r.address.toNat, beats := r.beats }

/-- The position of the first addressed byte in the request's beats. -/
def HostRequest.offset (r : HostRequest) : Nat := r.address.toNat % 4

/-- The slots of Wh bytes of a walk access that are elements, or why its form does not fit Wh (R122, R123). -/
def HostRequest.elements (r : HostRequest) (wh : Nat) : Except HostReason (List Nat) :=
  if r.address.toNat % wh ≠ 0 ∨ r.length % wh ≠ 0 then .error .align
  else
    let slots := List.range (r.length / wh)
    match r.kind with
    | .read => .ok slots
    | .write =>
      let strobe (i j : Nat) : Bool := r.strobes.getD (r.offset + i * wh + j) false
      let full (i : Nat) : Bool := (List.range wh).all (strobe i)
      let clear (i : Nat) : Bool := (List.range wh).all fun j => !strobe i j
      if slots.all fun i => full i || clear i then .ok (slots.filter full) else .error .align

/-- The slot of Wh bytes that element `k` of a transaction stands in (R123). -/
def HostRequest.elementSlot (r : HostRequest) (wh k : Nat) : Nat :=
  match r.elements wh with
  | .ok l => l.getD k 0
  | .error _ => 0

/-- The Wh host bytes of a slot of a host write (R123). -/
def HostRequest.slotBytes (r : HostRequest) (wh i : Nat) : List Byte :=
  (List.range wh).map fun j =>
    let at_ := r.offset + i * wh + j
    r.data.getD at_ (Config.absentByte at_)

end Sys2Proof

namespace Sys2Proof.Machine

open Sys2Proof

/-! ### The head of a Service Queue (R37, R122, R123) -/

/-- The head check: the element count, or the reason of the FAULT answer (R37). -/
def Descriptor.headCheck (d : Descriptor) (r : HostRequest) : Except HostReason Nat :=
  if r.kind ≠ d.direction then .error .direction
  else (r.elements d.hostSize).map List.length

/-- The head of a context's Service Queue. -/
def State.head (s : State) (c : Ctx) : Option (HostTag × HostSlot) :=
  match (s.context c).service with
  | [] => none
  | t :: _ => (s.slot t).map fun x => (t, x)

/-- The elements that the head has taken and still needs, as READ_CONTEXT reports them (R43). -/
def State.headReport (s : State) (c : Ctx) : Option (HostTag × Nat × Nat) :=
  match (s.context c).service with
  | [] => none
  | t :: _ =>
    match s.slot t with
    | none => some (t, 0, 0)
    | some x => some (t, x.taken, x.count.getD 0 - x.taken)

/-- Elements the head still needs: 0 without a head, and before its head check (R58). -/
def State.demand (s : State) (c : Ctx) : Nat :=
  if (s.context c).headChecked then
    match s.head c with
    | none => 0
    | some (_, x) => x.count.getD 0 - x.taken
  else 0

/-! ### Read-ahead (R58 to R61) -/

/-- The elements a walk can still yield (R58). -/
def Context.elementsLeft (x : Context) (d : Descriptor) : Nat :=
  if d.endless then Config.progressLimit - x.progress else d.positions - d.startOrdinal - x.progress

/-- The fill target (R58). -/
def State.fillTarget (s : State) (c : Ctx) (d : Descriptor) : Nat :=
  min 8 (min ((s.context c).elementsLeft d) (d.readAhead + s.demand c))

/-- The context's candidate, its oldest PENDING entry (R60). -/
def Context.candidate (x : Context) : Option Entry := x.entries.find? fun e => e.state == .pending

/-- A gather line of some context overlaps the span (R61). -/
def State.meetsLine (s : State) (p : Span) : Bool :=
  allCtx.any fun c => (s.context c).lines.any fun l => l.span.overlaps p

/-- The read-ahead candidate of `c` when it is eligible for admission (R61). -/
def State.readCandidate (s : State) (c : Ctx) : Option Entry :=
  ((s.context c).candidate).filter fun e => !s.meetsLine e.span

/-! ### Gathering (R77 to R85) -/

/-- The line addresses that an element at `addr` needs, ascending (R77). -/
def Descriptor.linesNeeded (d : Descriptor) (addr : Nat) : List Nat :=
  match d.keptLanes.head?, d.keptLanes.getLast? with
  | some a, some b =>
    if lineOf (addr + a.val) = lineOf (addr + b.val) then [lineOf (addr + a.val)]
    else [lineOf (addr + a.val), lineOf (addr + b.val)]
  | _, _ => []

/-- An OPEN line of the context has this line address. -/
def Context.hasOpen (x : Context) (a : Nat) : Bool := x.lines.any fun l => l.state == .opened && l.addr == a

/-- The slots that an element lacks (R78): the new lines it needs beyond the free slots. -/
def Context.lacking (x : Context) (need : List Nat) : Nat :=
  (need.filter fun a => !x.hasOpen a).length - (4 - x.lines.length)

/-- A waiting passthrough write holds the line back (R84). -/
def State.heldBack (s : State) (c : Ctx) (l : GatherLine) : Bool :=
  s.fifo.any fun e =>
    match s.slot e.tag with
    | none => false
    | some x => x.req.kind == .write && x.req.span.overlaps l.span && !e.waitSet.contains (c, l.slot)

/-- The line that stands first in the context's issuing order (R85). -/
def Context.firstIssuing (x : Context) : Option GatherLine :=
  match x.issuing with
  | [] => none
  | k :: _ => x.lines.find? fun l => l.slot == k

/-- The gather candidate of `c` when it is eligible for admission (R85). -/
def State.gatherCandidate (s : State) (c : Ctx) : Option GatherLine :=
  (s.context c).firstIssuing.filter fun l => l.state == .issuing && !s.heldBack c l

/-- The passthrough candidate when it is eligible for admission: the oldest request with an empty wait set (R83,
R125). -/
def State.passCandidate (s : State) : Option (HostTag × HostSlot) :=
  match s.fifo with
  | [] => none
  | e :: _ => if e.waitSet.isEmpty then (s.slot e.tag).map fun x => (e.tag, x) else none

/-! ### The arbiter and the issue rule (R136, R138) -/

/-- The admission sources at their positions in the cycle (R136). -/
inductive Source where
  | passthrough
  | readAhead (c : Ctx)
  | gather (c : Ctx)
  deriving DecidableEq, Repr

/-- The source at a position (R136): 0 the passthrough FIFO, 1 + 2c and 2 + 2c the sources of context c. -/
def sourceAt (p : Fin 17) : Source :=
  if p.val = 0 then .passthrough
  else if p.val % 2 = 1 then .readAhead (Fin.ofNat 8 ((p.val - 1) / 2))
  else .gather (Fin.ofNat 8 ((p.val - 2) / 2))

/-- The source presents an eligible candidate. -/
def State.sourceReady (s : State) : Source → Bool
  | .passthrough => s.passCandidate.isSome
  | .readAhead c => (s.readCandidate c).isSome
  | .gather c => (s.gatherCandidate c).isSome

/-- The position that the arbiter admits next: the first ready one from the pointer onward, while the Issue Queue
has room (R136). -/
def State.nextAdmission (s : State) : Option (Fin 17) :=
  if s.iq.length < 16 then
    ((List.range 17).map fun i => Fin.ofNat 17 (s.pointer.val + i)).find? fun p => s.sourceReady (sourceAt p)
  else none

/-- A tracker entry is in flight and forms a hazard with the request (R138, condition 2). -/
def State.hazardInFlight (s : State) (k : Kind) (p : Span) : Bool :=
  allTags.any fun t =>
    match s.track t with
    | none => false
    | some e => e.state == .inFlight && hazard e.kind e.span k p

/-- The lowest free memory tag (R138). -/
def State.freeTag (s : State) : Option MemTag := allTags.find? fun t => (s.track t).isNone

/-- Splits a queue at its oldest entry that forms no hazard in flight or with an older entry (R138, conditions 2
and 3): the entries before it, the entry, and the entries after it. -/
def State.pickIssue (s : State) (older : List IqEntry) : List IqEntry → Option (List IqEntry × IqEntry × List IqEntry)
  | [] => none
  | e :: rest =>
    if !s.hazardInFlight e.kind e.span && !(older.any fun o => hazard o.kind o.span e.kind e.span) then
      some (older, e, rest)
    else s.pickIssue (older ++ [e]) rest

/-- The number of QUARANTINED entries (R146). -/
def State.quarantined (s : State) : Nat :=
  allTags.countP fun t => (s.track t).any fun e => e.state == .quarantined

/-! ### Attached writes and the drain (R29, R76) -/

def Origin.isReadOf (c : Ctx) : Origin → Bool
  | .readAhead c' _ _ => c' == c
  | _ => false

def Origin.isWriteOf (c : Ctx) : Origin → Bool
  | .gather c' _ _ => c' == c
  | _ => false

/-- The number of attached line writes of a context: admitted, not answered, not detached (R76). A quarantined
write has been reported to its origin and is attached no longer. -/
def State.attachedWrites (s : State) (c : Ctx) : Nat :=
  (s.iq.countP fun e => e.origin.isWriteOf c && !e.detached)
    + allTags.countP fun t => (s.track t).any fun e => e.origin.isWriteOf c && !e.detached && e.state == .inFlight

/-- Nothing of the ended walk's memory traffic remains attached (R29). -/
def State.drained (s : State) (c : Ctx) : Bool :=
  (s.context c).state == .draining && (s.context c).lines.isEmpty && s.attachedWrites c == 0

/-! ### Pacing (R100, R101, R103) -/

/-- The outcome of the pacing step. -/
inductive Pace where
  | pass
  | pace
  | lead
  | lost
  deriving DecidableEq, Repr

/-- The follower condition holds (R100). -/
def State.followerMay (s : State) (c : Ctx) (l : PacingLink) : Bool :=
  (s.context c).progress + 1 + l.gap ≤ (s.context l.leader).progress

/-- The link of follower `f` holds its leader `c` within its lead limit (R101). -/
def State.leadHolds (s : State) (c f : Ctx) : Bool :=
  match s.pacing f with
  | none => false
  | some l =>
    l.leader == c && l.state == .armed && (s.context f).state == .active
      && match l.lead with
        | none => false
        | some n => (s.context f).progress + n ≤ (s.context c).progress

/-- The context is the ACTIVE follower of a BROKEN link (R103, check 1). -/
def State.linkLost (s : State) (c : Ctx) : Bool :=
  (s.context c).state == .active && (s.pacing c).any fun l => l.state == .broken

/-- The pacing step (R103). -/
def State.paceStep (s : State) (c : Ctx) : Pace :=
  if s.linkLost c then .lost
  else if (s.context c).state == .active && (s.pacing c).any fun l => l.state == .armed && !s.followerMay c l then .pace
  else if allCtx.any fun f => s.leadHolds c f then .lead
  else .pass

/-- The path of links from `c` reaches `target` within `n` contexts (R96). -/
def State.pathReaches (s : State) (target : Ctx) : Nat → Ctx → Bool
  | 0, _ => false
  | n + 1, c => c == target || match s.pacing c with
    | none => false
    | some l => s.pathReaches target n l.leader

/-! ### Timers (R80, R105, R145) -/

/-- The microseconds since a Timebase value, modulo 2^32 (R162). -/
def State.since (s : State) (t : BitVec 32) : Nat := (s.timebase - t).toNat

/-- The line is OPEN and its age has reached GATHER_AGE_US (R80). -/
def State.lineAged (s : State) (l : GatherLine) : Bool :=
  l.state == .opened && s.settings.gatherAgeUs ≠ 0 && s.settings.gatherAgeUs ≤ s.since l.openedAt

/-- The head has been held PACE or LEAD for longer than PACE_LIMIT_US (R105). -/
def State.headTimedOut (s : State) (c : Ctx) : Bool :=
  let x := s.context c
  x.state == .active && !x.service.isEmpty && (x.hold == .pace || x.hold == .lead)
    && s.settings.paceLimitUs ≠ 0 && s.settings.paceLimitUs < s.since x.holdStart

/-- The request on a memory tag is in flight for longer than MEM_TIMEOUT_US (R145). -/
def State.requestTimedOut (s : State) (t : MemTag) : Bool :=
  (s.track t).any fun e =>
    e.state == .inFlight && s.settings.memTimeoutUs ≠ 0 && s.settings.memTimeoutUs < s.since e.sent

end Sys2Proof.Machine
end

