-- ==== Sys2Proof/Machine/Ops.lean ====
section
/-! DEFINITION. The operations that several commands share: posting events, answering host transactions, head
checks, launches, the end of a walk and its drain, discards and detachment, link breaks, faults and aborts, merges
and stale marks, and `settle`, which every event that can change a wait ends with. -/

namespace Sys2Proof.Machine

open Sys2Proof

/-! ### Events (R167 to R169) -/

/-- A record of kind `k` stamped with the Timebase, with no optional field (R167). -/
def State.record (s : State) (k : EventKind) : EventRecord := { kind := k, timestamp := s.timebase }

/-- Posts a record: it joins the queue, or is dropped and counted while the queue holds 32 (R169). -/
def State.post (s : State) (e : EventRecord) : State :=
  if s.events.length < 32 then { s with events := s.events ++ [e] } else { s with loss := min 65535 (s.loss + 1) }

/-! ### Answers to the master (R115, R128) -/

/-- The HOST_FAULT record of a transaction answered FAULT (R128, R168). -/
def State.hostFaultRecord (s : State) (t : HostTag) (x : HostSlot) (why : HostReason) : EventRecord :=
  { s.record .hostFault with
    tag := some t
    address := some x.req.address.toNat
    reason := some why.toReason
    context := match x.cls with
      | some (.walk c) => some c
      | _ => none
    value := match x.cls with
      | some (.walk _) => some x.taken
      | _ => none }

/-- Answers the OPEN transaction on tag `t`: OKAY, or FAULT for the reason given. It joins the response order with
the data collected so far, and a FAULT posts HOST_FAULT (R115, R117, R128). -/
def State.answer (s : State) (t : HostTag) (why : Option HostReason) : State :=
  match s.slot t with
  | none => s
  | some x =>
    match x.answer with
    | some _ => s
    | none =>
      let a : HostAnswer := { status := if why.isNone then .okay else .fault, data := x.readData }
      let s₁ := { s.setSlot t (some { x with answer := some a }) with responses := s.responses ++ [t] }
      match why with
      | none => s₁
      | some r => s₁.post (s.hostFaultRecord t x r)

/-! ### Creation of read-ahead entries (R57 to R59) -/

/-- Creates up to `n` entries at the fetch cursor (R59). -/
def Context.createEntries (d : Descriptor) : Nat → Context → Context
  | 0, x => x
  | n + 1, x =>
    match x.cursor with
    | .exhausted => x
    | .at p =>
      let a := (d.address p).toNat
      let e : Entry :=
        { seq := x.progress + x.entries.length, addr := a, span := elementSpan a d.memWidth, ordinal := d.ordinal p,
          state := .pending }
      Context.createEntries d n { x with entries := x.entries ++ [e], cursor := (d.advance p).1 }

/-- A context brought up to its fill target, if it runs an ACTIVE read walk (R58, R59). -/
def State.fillContext (s : State) (c : Ctx) (x : Context) : Context :=
  match x.state, x.snapshot with
  | .active, some d =>
    if d.direction = .read then x.createEntries d (s.fillTarget c d - x.entries.length) else x
  | _, _ => x

/-- Brings every Read-Ahead Queue up to its fill target (R58, R59). -/
def State.fill (s : State) : State := s.mapContexts s.fillContext

/-- Brings the Read-Ahead Queue of `c` up to its fill target (R58, R59). -/
def State.fillAt (s : State) (c : Ctx) : State := s.setContext c (s.fillContext c (s.context c))

/-! ### The head of a Service Queue (R37, R40 to R42) -/

/-- Removes the head from the Service Queue; the transaction behind it becomes the head, not yet checked. -/
def State.popHead (s : State) (c : Ctx) : State :=
  let x := s.context c
  s.setContext c { x with service := x.service.tail, headChecked := false, hold := .none, shortfall := 0 }

/-- Answers the head and removes it. -/
def State.finishHead (s : State) (c : Ctx) (why : Option HostReason) : State :=
  match (s.context c).service with
  | [] => s
  | t :: _ => (s.answer t why).popHead c

/-- Fixes the head's element count by its head check (R37, R124). -/
def State.acceptHead (s : State) (c : Ctx) (t : HostTag) (x : HostSlot) (k : Nat) : State :=
  (s.setSlot t (some { x with count := some k, taken := 0 })).setContext c { s.context c with headChecked := true }

/-- Checks the head of an ACTIVE walk, and the heads promoted after it, until one passes its head check and keeps
its place: a failed check is answered DIRECTION or ALIGN, a write without an element OKAY (R37). For the demand of a
head that passes its check entries are created (R58, R59), and while the link of the context is BROKEN a head that
needs elements is answered LEADER_LOST (R107). -/
def State.promoteN (c : Ctx) : Nat → State → State
  | 0, s => s
  | n + 1, s =>
    match (s.context c).state, (s.context c).snapshot, s.head c with
    | .active, some d, some (t, x) =>
      if (s.context c).headChecked then
        if s.linkLost c && 0 < s.demand c then State.promoteN c n (s.finishHead c (some .leaderLost)) else s
      else
        match d.headCheck x.req with
        | .error why => State.promoteN c n (s.finishHead c (some why))
        | .ok 0 => State.promoteN c n (s.finishHead c none)
        | .ok (k + 1) =>
          let s₁ := (s.acceptHead c t x (k + 1)).fillAt c
          if s.linkLost c then State.promoteN c n (s₁.finishHead c (some .leaderLost)) else s₁
    | _, _, _ => s

/-- The head checks that an event makes due for the Service Queue of `c` (R37, R107). -/
def State.promote (s : State) (c : Ctx) : State := State.promoteN c ((s.context c).service.length + 1) s

/-- Answers every transaction of the Service Queue FAULT with one reason, in arrival order (R36). -/
def State.answerAll (s : State) (c : Ctx) (why : HostReason) : State :=
  let s₁ := (s.context c).service.foldl (fun s t => s.answer t (some why)) s
  s₁.setContext c { s₁.context c with service := [], headChecked := false, hold := .none, shortfall := 0 }

/-! ### Detachment and discard (R71, R93, R139) -/

/-- Sets the detached flag of the admitted requests of the given origins: in the Issue Queue, in flight, and, where
`all` is set, QUARANTINED (R139, R147). -/
def State.detach (s : State) (p : Origin → Bool) (all : Bool) : State :=
  { s with
    iq := s.iq.map fun e => if p e.origin then { e with detached := true } else e
    tracker := Vector.ofFn fun t => (s.track t).map fun e =>
      if p e.origin && (all || e.state == .inFlight) then { e with detached := true } else e }

/-- Discards the Read-Ahead Queue and detaches its reads (R71, R72). -/
def State.discardReadAhead (s : State) (c : Ctx) : State :=
  (s.setContext c { s.context c with entries := [] }).detach (Origin.isReadOf c) true

/-- Discards the context's lines: their slots free and they leave every wait set (R93). -/
def State.discardLines (s : State) (c : Ctx) : State :=
  { s.setContext c { s.context c with lines := [], issuing := [] } with
    fifo := s.fifo.map fun e => { e with waitSet := e.waitSet.filter fun m => m.1 != c } }

/-! ### Gather lines (R77 to R79) -/

/-- The line made ISSUING. -/
def GatherLine.issue (l : GatherLine) : GatherLine := { l with state := .issuing }

/-- Every OPEN line of the context made ISSUING (R28, R81). -/
def Context.issueAll (x : Context) : Context := { x with lines := x.lines.map GatherLine.issue }

/-- The lowest slot that no line holds (R77; log entry 13). -/
def Context.freeSlot (x : Context) : Fin 4 :=
  (([0, 1, 2, 3] : List (Fin 4)).find? fun k => !x.lines.any fun l => l.slot == k).getD 0

/-- The line with one byte merged in (R77). -/
def GatherLine.put (l : GatherLine) (a : Nat) (b : Byte) : GatherLine :=
  { l with valid := l.valid ||| BitVec.ofNat 32 (2 ^ (a % 32)), data := l.data.set! (a % 32) b }

/-- Merges one byte: into the OPEN line of its address, or into a new line, last in opening order (R77). -/
def Context.mergeByte (now : BitVec 32) (x : Context) (m : Nat × Byte) : Context :=
  let mine (l : GatherLine) : Bool := l.state == .opened && l.addr == lineOf m.1
  if x.lines.any mine then
    { x with lines := x.lines.map fun l => if mine l then l.put m.1 m.2 else l }
  else
    let l : GatherLine :=
      { slot := x.freeSlot, addr := lineOf m.1, valid := 0, data := Vector.replicate 32 0, state := .opened,
        openedAt := now }
    { x with lines := x.lines ++ [l.put m.1 m.2] }

/-- Merges the bytes of one element (R77, steps 1 and 2). -/
def Context.mergeBytes (now : BitVec 32) (x : Context) (bytes : List (Nat × Byte)) : Context :=
  bytes.foldl (Context.mergeByte now) x

/-- The lines that the bytes of one element were merged into. -/
def Context.mergedLines (x : Context) (bytes : List (Nat × Byte)) : List GatherLine :=
  x.lines.filter fun l => l.state == .opened && bytes.any fun m => lineOf m.1 == l.addr

/-- The lines that hold 32 valid bytes made ISSUING (R77, step 4). -/
def Context.issueFull (x : Context) : Context :=
  { x with lines := x.lines.map fun l => if l.valid = BitVec.allOnes 32 then l.issue else l }

/-- Makes ISSUING the first `n` OPEN lines whose address the element does not need (R78). -/
def evict : Nat → List Nat → List GatherLine → List GatherLine
  | 0, _, ls => ls
  | _ + 1, _, [] => []
  | n + 1, need, l :: ls =>
    if l.state == .opened && !need.contains l.addr then l.issue :: evict n need ls else l :: evict (n + 1) need ls

/-! ### Stale marks (R63, R64) -/

/-- An entry's state after an overlapping merge or passthrough write (R63). -/
def EntryState.stale : EntryState → EntryState
  | .requested => .requestedStale
  | .filled _ => .pending
  | e => e

/-- Marks the entries of every context whose span meets the write (R63, R64). -/
def State.markStale (s : State) (hit : Span → Bool) : State :=
  s.mapContexts fun _ x =>
    { x with entries := x.entries.map fun e => if hit e.span then { e with state := e.state.stale } else e }

/-! ### Settling (R39, R58, R59, R61, R78, R79, R104)

The fill target, the flush of lines under a read-ahead candidate, the holds and the issuing order are conditions
that the spec keeps at all times. Every event that can change one of their terms ends with `settle`. -/

/-- Makes every OPEN line that overlaps a read-ahead candidate ISSUING (R61). -/
def State.flushHazards (s : State) : State :=
  s.mapContexts fun _ x =>
    { x with lines := x.lines.map fun l =>
        if allCtx.any fun c => (s.context c).candidate.any fun e => l.span.overlaps e.span then l.issue else l }

/-- The context with a hold reason; the hold start time is set when the reason becomes PACE or LEAD from any other
value (R39). -/
def Context.withHold (x : Context) (now : BitVec 32) (h : Hold) : Context :=
  { x with
    hold := h
    holdStart := if (h = .pace ∨ h = .lead) ∧ x.hold ≠ h then now else x.holdStart }

/-- The data-or-space step of the head's next element (R69, R77, R78): hold NONE when it can be taken, DATA, or
LINE with the evictions of R78. -/
def Context.stepTwo (x : Context) (now : BitVec 32) : Context :=
  match x.snapshot, x.take with
  | some d, .at p =>
    match d.direction with
    | .read =>
      match x.entries.head?.map Entry.state with
      | some (.filled _) | some .poisoned => x.withHold now .none
      | _ => x.withHold now .data
    | .write =>
      let need := d.linesNeeded (d.address p).toNat
      let k := x.lacking need
      if k = 0 then { x.withHold now .none with shortfall := 0 }
      else { x.withHold now .line with lines := evict (k - x.shortfall) need x.lines, shortfall := k }
  | _, _ => x.withHold now .none

/-- The hold reason of a context, decided afresh (R39, R103, R104). An element that a pacing hold takes back to step 1
keeps the shortfall of its last attempt at step 2 (the model's choice, log entry 27). -/
def State.decideHold (s : State) (c : Ctx) (x : Context) : Context :=
  match x.state with
  | .draining => x.withHold s.timebase (if x.service.isEmpty then .none else .next)
  | .active =>
    if 0 < s.demand c then
      match s.paceStep c with
      | .pace => x.withHold s.timebase .pace
      | .lead => x.withHold s.timebase .lead
      | .lost => x.withHold s.timebase .none
      | .pass => x.stepTwo s.timebase
    else x.withHold s.timebase .none
  | _ => x.withHold s.timebase .none

/-- Appends the lines that this event made ISSUING to the issuing order, in opening order (R79). -/
def Context.orderIssuing (x : Context) : Context :=
  { x with issuing :=
      x.issuing ++ (x.lines.filter fun l => l.state == .issuing && !x.issuing.contains l.slot).map GatherLine.slot }

/-- Decides afresh everything that waits on the state, the issuing order apart. -/
def State.decideAfresh (s : State) : State :=
  let s₁ := s.fill.flushHazards
  s₁.mapContexts s₁.decideHold

/-- Decides afresh everything that waits on the state, once, in the state that the event leaves. So the first attempt of
the next element, with its evictions, belongs to the event that let it come (log entry 29), and a context that leaves
ACTIVE and enters it again within the event is seen ACTIVE throughout by its leader's hold (log entry 30). -/
def State.settle (s : State) : State := s.decideAfresh.mapContexts fun _ x => x.orderIssuing

/-! ### Link breaks and faults (R24, R34, R106) -/

/-- Breaks the link of follower `f` if it is ARMED and its leader is `c`: LEADER_LOST is posted, and the heads of an
ACTIVE follower that need elements are answered (R106, R107). -/
def State.breakLink (c : Ctx) (why : Reason) (s : State) (f : Ctx) : State :=
  match s.pacing f with
  | none => s
  | some l =>
    if l.leader = c ∧ l.state = .armed then
      let s₁ := (s.setPacing f (some { l with state := .broken })).post
        { s.record .leaderLost with
          context := some f
          serial := some (s.context f).serial
          value := some c.val
          reason := some why }
      s₁.promote f
    else s

/-- Breaks every ARMED link that `c` leads, in ascending order of follower (R106). -/
def State.breakLinks (s : State) (c : Ctx) (why : Reason) : State := allCtx.foldl (State.breakLink c why) s

/-- Entry to FAULTED: the Service Queue is answered CONTEXT_FAULTED, the target region becomes absent and the
leader links break (R24, R34, R36). -/
def State.faultContext (s : State) (c : Ctx) (why : FaultReason) : State :=
  let s₁ := s.answerAll c .contextFaulted
  (s₁.setContext c { s₁.context c with state := .faulted, faultReason := some why, region := none }).breakLinks c
    why.toReason

/-! ### Launch (R23, R24, R109) -/

/-- Re-arms a BROKEN link at its follower's launch when the leader is not FAULTED (R109). -/
def State.rearm (s : State) (c : Ctx) : State :=
  match s.pacing c with
  | none => s
  | some l =>
    if l.state = .broken ∧ (s.context l.leader).state ≠ .faulted then s.setPacing c (some { l with state := .armed })
    else s

/-- The context record of an accepted launch (R23). -/
def Context.launched (x : Context) (i : DescIx) (d : Descriptor) : Context :=
  { x with
    state := .active
    snapshot := some d
    descIndex := some i
    region := some d.region
    serial := x.serial + 1
    take := d.startPos
    cursor := if d.direction = .read then d.startPos else x.cursor
    progress := 0
    passes := 0
    endCause := none
    faultReason := none
    headChecked := false
    shortfall := 0 }

/-- An accepted launch: the context becomes ACTIVE, its link re-arms, and the waiting transactions meet their head
checks (R23, R37, R109). -/
def State.launchAccepted (s : State) (c : Ctx) (i : DescIx) : State :=
  ((s.setContext c ((s.context c).launched i (s.desc i))).rearm c).promote c

/-- A refused launch (R24). -/
def State.launchRefused (s : State) (c : Ctx) (i : DescIx) (why : RefusalReason) : State :=
  (s.post { s.record .launchRefused with context := some c, descriptor := some i, reason := some why.toReason }).faultContext
    c .launchRefused

/-- A launch attempt from descriptor `i` as it stands (R17, R23, R24). -/
def State.launch (s : State) (c : Ctx) (i : DescIx) : State :=
  match s.launchCheck (s.desc i) with
  | none => s.launchAccepted c i
  | some why => s.launchRefused c i why

/-- Removes the Launch Queue's head and attempts a launch from it; nothing for an empty queue (R27, R32, R33). -/
def State.launchNext (s : State) (c : Ctx) : State :=
  match (s.context c).launchQ with
  | [] => s
  | i :: rest => (s.setContext c { s.context c with launchQ := rest }).launch c i

/-! ### The end of a walk and its drain (R28 to R30) -/

/-- The WALK_DONE record of the walk just drained (R30, R168). -/
def State.walkDoneRecord (s : State) (c : Ctx) : EventRecord :=
  let x := s.context c
  { s.record .walkDone with
    context := some c
    serial := some x.serial
    descriptor := x.descIndex
    reason := x.endCause.map EndCause.toReason
    value := some x.progress }

/-- What follows a completed drain (R30): WALK_DONE if enabled, then CHAIN, the Launch Queue or IDLE. -/
def State.completeDrain (s : State) (c : Ctx) : State :=
  let x := s.context c
  let s₁ := if (x.snapshot.map Descriptor.doneEvent).getD false then s.post (s.walkDoneRecord c) else s
  match (if x.endCause = some .exhausted then x.snapshot.bind Descriptor.chain else none) with
  | some i => s₁.launch c i
  | none =>
    if x.launchQ.isEmpty then
      (s₁.setContext c { s₁.context c with state := .idle, region := none }).answerAll c .noWalk
    else s₁.launchNext c

/-- Completes the drain if nothing of the walk's memory traffic remains attached (R29). -/
def State.drainIfDone (s : State) (c : Ctx) : State := if s.drained c then s.completeDrain c else s

/-- Ends an ACTIVE walk: the context enters DRAINING with hold NEXT or NONE, a read walk's read-ahead is discarded, a
write walk's OPEN lines become ISSUING, and the drain may complete at once (R28, R29, R39). -/
def State.endWalk (s : State) (c : Ctx) (why : EndCause) : State :=
  let x := s.context c
  let s₁ := s.setContext c
    { x.issueAll with
      state := .draining
      endCause := some why
      hold := if x.service.isEmpty then .none else .next
      headChecked := false
      shortfall := 0 }
  let s₂ := if x.snapshot.map Descriptor.direction = some .read then s₁.discardReadAhead c else s₁
  s₂.drainIfDone c

/-- Steps 1 to 7 of an abort (R32). `breaks` is clear for SOFT_RESET, which breaks no link (R110). -/
def State.abort (s : State) (c : Ctx) (breaks purge : Bool) : State :=
  let s₁ := (s.discardLines c).detach (Origin.isWriteOf c) true
  let s₂ := (s₁.discardReadAhead c).answerAll c .aborted
  let s₃ := if breaks then s₂.breakLinks c .aborted else s₂
  let x := s₃.context c
  s₃.setContext c { x with state := .idle, region := none, launchQ := if purge then [] else x.launchQ }

/-! ### Answers from memory to walk requests (R65, R66, R90, R91) -/

/-- A failed line write, attached or detached (R90, R91). -/
def State.lineFailed (s : State) (c : Ctx) (serial : BitVec 16) (line : Nat) (attached : Bool) (why : FaultReason)
    (reason : Reason) : State :=
  let s₁ := s.post
    { s.record .writeFault with
      context := some c
      serial := some serial
      address := some line
      reason := some reason
      value := some (if attached then (s.context c).lines.length else 0) }
  if attached then ((s₁.discardLines c).detach (Origin.isWriteOf c) false).faultContext c why else s₁

/-- Rewrites the read-ahead entry of a context that `seq` names. -/
def State.setEntry (s : State) (c : Ctx) (seq : Nat) (st : EntryState) : State :=
  s.setContext c { s.context c with
    entries := (s.context c).entries.map fun e => if e.seq = seq then { e with state := st } else e }

/-- The read-ahead entry of a context that has a read outstanding under this name (R62). -/
def State.outstanding (s : State) (c : Ctx) (seq : Nat) : Option Entry :=
  (s.context c).entries.find? fun e => e.seq == seq && (e.state == .requested || e.state == .requestedStale)

/-- A failed or timed-out attached read poisons its entry and posts READ_FAULT (R66). -/
def State.readFailed (s : State) (c : Ctx) (serial : BitVec 16) (seq : Nat) (reason : Reason) : State :=
  match s.outstanding c seq with
  | none => s
  | some e =>
    (s.setEntry c seq .poisoned).post
      { s.record .readFault with
        context := some c
        serial := some serial
        address := some e.addr
        reason := some reason
        value := some e.ordinal }

end Sys2Proof.Machine
end

