-- ==== Sys2Proof/Machine/HostPort.lean ====
section
/-! DEFINITION. The Host Port: HOST_REQUEST_ARRIVAL and HOST_RESPONSE_SENT (spec/07). -/

namespace Sys2Proof

open Sys2Proof.Machine

/-- The request is malformed (R114). -/
def HostRequest.malformed (r : HostRequest) : Bool :=
  if r.beats = 1 then r.address.toNat % r.size ≠ 0 || r.range.hi > 0xFFFFFFFF
  else r.address.toNat % 4 ≠ 0 || r.range.hi > 0xFFFFFFFF

/-- The slot that an accepted request takes, OPEN (R116). A read's data start as zero (R115). -/
def HostRequest.newSlot (r : HostRequest) : HostSlot where
  req := r
  cls := none
  count := none
  taken := 0
  readData := match r.kind with
    | .read => List.replicate (4 * r.beats) 0
    | .write => []
  poisoned := false
  answer := none

end Sys2Proof

namespace Sys2Proof.Machine

open Sys2Proof

/-- The results of classification (R120). -/
inductive Target where
  | walk (c : Ctx)
  | span
  | passthrough
  deriving DecidableEq, Repr

/-- The first range lies wholly inside the second. -/
def Region.inside (a b : Region) : Bool := b.lo ≤ a.lo && a.hi ≤ b.hi

/-- Classification by the enabled apertures (R120). -/
def State.classify (s : State) (r : HostRequest) : Target :=
  match s.apertureList.find? fun a => a.enabled && r.range.inside a.range with
  | some a => .walk a.context
  | none => if s.meetsAperture r.range then .span else .passthrough

/-- The wait set of an arriving passthrough request: every line whose write range overlaps its span (R82). -/
def State.waitSetFor (s : State) (p : Span) : List (Ctx × Fin 4) :=
  allCtx.flatMap fun c => ((s.context c).lines.filter fun l => l.span.overlaps p).map fun l => (c, l.slot)

/-- A walk access meets the state of its context (R35). -/
def State.walkAccess (s : State) (t : HostTag) (c : Ctx) : State :=
  let x := s.context c
  match x.state with
  | .idle => s.answer t (some .noWalk)
  | .faulted => s.answer t (some .contextFaulted)
  | .active => (s.setContext c { x with service := x.service ++ [t] }).promote c
  | .draining => s.setContext c { x with service := x.service ++ [t] }

/-- A passthrough request enters the FIFO; the OPEN lines of its wait set become ISSUING (R82, R125). -/
def State.passArrival (s : State) (r : HostRequest) : State :=
  let s₁ := s.mapContexts fun _ x =>
    { x with lines := x.lines.map fun l => if l.span.overlaps r.span then l.issue else l }
  { s₁ with fifo := s.fifo ++ [{ tag := r.tag, waitSet := s.waitSetFor r.span }] }

/-- The TAG_REUSE record of a discarded request (R116). -/
def State.tagReuseRecord (s : State) (r : HostRequest) : EventRecord :=
  { s.record .tagReuse with tag := some r.tag, address := some r.address.toNat }

/-- What the Host Port does with a request whose tag is free (R114, R116, R120). -/
def State.accept (s : State) (r : HostRequest) : State :=
  if r.malformed then (s.setSlot r.tag (some r.newSlot)).answer r.tag (some .malformed)
  else
    match s.classify r with
    | .span => (s.setSlot r.tag (some r.newSlot)).answer r.tag (some .span)
    | .walk c => (s.setSlot r.tag (some { r.newSlot with cls := some (.walk c) })).walkAccess r.tag c
    | .passthrough => (s.setSlot r.tag (some { r.newSlot with cls := some .passthrough })).passArrival r

/-- HOST_REQUEST_ARRIVAL (R113 to R120): no request is taken while RST# is low (R129); a reused tag discards the
request (R116). -/
def State.arrival (s : State) (r : HostRequest) : State :=
  if s.rstLow then s
  else if (s.slot r.tag).isSome then s.post (s.tagReuseRecord r)
  else (s.accept r).settle

def execHostRequestArrival (r : HostRequest) (s : State) : Result := .next (s.arrival r)

/-- HOST_RESPONSE_SENT: the first response of the response order is sent, and its slot and tag free (R115, R116).
Nothing happens while no transaction is answered. -/
def State.responseSent (s : State) : State :=
  match s.responses with
  | [] => s
  | t :: rest => { s.setSlot t none with responses := rest }

def execHostResponseSent (s : State) : Result := .next s.responseSent

end Sys2Proof.Machine
end

