-- ==== Sys2Proof/Machine/Link.lean ====
section
/-! DEFINITION. The Management Link (spec/09): frames and bytes (FRAME_BEGIN, LINK_BYTE_COMPLETE, FRAME_END,
UNKNOWN_COMMAND), the intake that every command row shares, and WRITE_DESC. -/

namespace Sys2Proof.Machine

open Sys2Proof

/-! ### Commands (R155) -/

/-- What an owner block gives back for a command: the state, the status and the reply bytes (R155). -/
structure Reply where
  state : State
  status : Status
  bytes : List Byte := []

/-- A refusal changes nothing and has no reply (R155, R159). -/
def State.refuse (s : State) (e : Status) : Reply := { state := s, status := e }

/-- The frame record after the byte that makes a command act: phase RESPONSE, with the status byte and the reply
waiting to be shifted out (R153, R155). -/
def Frame.answered (f : Frame) (b : Byte) (st : Status) (reply : List Byte) : Frame :=
  { f with
    phase := .response
    count := f.count + 1
    code := if f.phase = .command then some b else f.code
    params := if f.phase = .parameters then f.params ++ [b] else f.params
    response := st.code :: reply }

/-- The command, WRITE_DESC apart, that acts when byte `b` completes: a command without parameters in phase COMMAND,
or the command in progress at its last parameter byte (R153, R155). -/
def Frame.completing (f : Frame) (b : Byte) : Option Command :=
  match f.phase with
  | .command => (Command.ofCode b).filter fun c => c.paramLen == some 0
  | .parameters => (f.code.bind Command.ofCode).filter fun c => c.paramLen == some (f.params.length + 1)
  | _ => none

/-- The parameter bytes of the command that byte `b` completes (R178). -/
def Frame.parameters (f : Frame) (b : Byte) : List Byte := if f.phase = .parameters then f.params ++ [b] else []

/-- The event in which a command's last parameter byte completes: its owner decides the effect, the status and the
reply, and the link enters RESPONSE (R155). Nothing happens where this byte does not complete this command. -/
def State.command (s : State) (k : Command) (b : Byte) (owner : List Byte → State → Reply) : State :=
  if s.link.completing b = some k then
    let r := owner (s.link.parameters b) s
    { r.state with link := s.link.answered b r.status r.bytes }
  else s

/-! ### WRITE_DESC (R3, R157) -/

/-- What a parameter byte of WRITE_DESC brings about. A record is given where a pair is applied. -/
inductive DescByte where
  /-- The command goes on. -/
  | more (f : Frame) (put : Option (DescIx × Descriptor))
  /-- The command is complete or refused, with this frame record, status and pair number. -/
  | done (f : Frame) (st : Status) (n : Nat) (put : Option (DescIx × Descriptor))

/-- The frame record after the pair being received has left it, with the number of pairs applied (R153). -/
def Frame.pairEnd (f : Frame) (applied : Nat) : Frame := { f with applied := applied, field := none, value := [] }

/-- The last byte of a pair's value: the pair is refused, applied, or applied as the last one (R3, R157). -/
def State.descPair (s : State) (f : Frame) (i : DescIx) (count : Nat) (fld : Field) (value : List Byte) : DescByte :=
  match (s.desc i).write fld value with
  | none => .done (f.pairEnd f.applied) .badValue (f.applied + 1) none
  | some d =>
    if f.applied + 1 = count then .done (f.pairEnd (f.applied + 1)) .ok (f.applied + 1) (some (i, d))
    else .more (f.pairEnd (f.applied + 1)) (some (i, d))

/-- A parameter byte of WRITE_DESC: the index, the pair count, a field identifier or a value byte (R157). -/
def State.descByte (s : State) (b : Byte) : DescByte :=
  let f := s.link
  match f.desc, f.pairs, f.field with
  | none, _, _ =>
    match indexOf 64 b.toNat with
    | none => .done f .badIndex 0 none
    | some i => .more { f with desc := some i } none
  | some _, none, _ =>
    if 1 ≤ b.toNat ∧ b.toNat ≤ 16 then .more { f with pairs := some b.toNat } none else .done f .badValue 0 none
  | some _, some _, none =>
    match Field.ofId b with
    | none => .done f .badValue (f.applied + 1) none
    | some fld => .more { f with field := some fld } none
  | some i, some n, some fld =>
    if f.value.length + 1 = fld.width then s.descPair f i n fld (f.value ++ [b])
    else .more { f with value := f.value ++ [b] } none

/-- The Descriptor Table with an applied pair. -/
def State.putDesc (s : State) : Option (DescIx × Descriptor) → State
  | none => s
  | some (i, d) => s.setDesc i d

/-- WRITE_DESC is in progress: the byte that completes is one of its parameters. -/
def Frame.writing (f : Frame) : Bool := f.phase == .parameters && f.code == some Command.writeDesc.code

/-- WRITE_DESC: the byte that completes or refuses it (R3, R157). Nothing happens where this byte does not end it. -/
def State.writeDescEnd (s : State) (b : Byte) : State :=
  if s.link.writing then
    match s.descByte b with
    | .more _ _ => s
    | .done f st n put => { s.putDesc put with link := f.answered b st (encodeLE 1 n) }
  else s

def execWriteDesc (b : Byte) (s : State) : Result := .next (s.writeDescEnd b)

/-! ### Frames (R152 to R154, R156) -/

/-- FRAME_BEGIN: MSEL# falls; in phase IDLE a frame begins in phase ADDRESS (R153). Nothing begins while RST# is low,
and MSEL# cannot fall while it is low. -/
def State.frameBegin (s : State) : State :=
  if s.mselLow then s
  else if s.rstLow ∨ s.link.phase ≠ .idle then { s with mselLow := true }
  else { s with mselLow := true, link := { Frame.idle with phase := .address } }

def execFrameBegin (s : State) : Result := .next s.frameBegin

/-- FRAME_END: MSEL# rises; the frame ends in any phase and the frame record is emptied (R156). -/
def execFrameEnd (s : State) : Result := .next { s with mselLow := false, link := .idle }

/-- UNKNOWN_COMMAND: in phase COMMAND a code that names no command is answered UNKNOWN_COMMAND (R154). -/
def execUnknownCommand (b : Byte) (s : State) : Result :=
  .next (if s.link.phase = .command ∧ Command.ofCode b = none then
    { s with link := s.link.answered b .unknownCommand [] } else s)

/-- A byte that ends no command moves the frame record on (R152, R153, R156): the address byte, a command byte that
has parameters, an earlier parameter byte, a completed WRITE_DESC pair, or a filler byte. Nothing happens for a
byte that makes a command act, or that completes while no frame is open. -/
def State.linkByte (s : State) (b : Byte) : State :=
  let f := s.link
  match f.phase with
  | .idle => s
  | .address =>
    { s with link := { f with phase := if b = s.linkAddress then .command else .ignored, count := f.count + 1 } }
  | .ignored => { s with link := { f with count := f.count + 1 } }
  | .response => { s with link := { f with count := f.count + 1, response := f.response.tail } }
  | .command =>
    match Command.ofCode b with
    | none => s
    | some k =>
      if k.paramLen = some 0 then s
      else { s with link := { f with phase := .parameters, count := f.count + 1, code := some b } }
  | .parameters =>
    if f.writing then
      match s.descByte b with
      | .done _ _ _ _ => s
      | .more f' put => { s.putDesc put with link := { f' with count := f.count + 1, params := f.params ++ [b] } }
    else if (f.completing b).isSome then s
    else { s with link := { f with count := f.count + 1, params := f.params ++ [b] } }

def execLinkByteComplete (b : Byte) (s : State) : Result := .next (s.linkByte b)

end Sys2Proof.Machine
end

