-- ==== Sys2Proof/Machine/LinkEvents.lean ====
section
/-! DEFINITION. The management commands over the Event Queue and ATTN#: POP_EVENT, PEEK_EVENT, READ_EVENT_STATUS and
SET_ATTENTION_MASK (spec/10). -/

namespace Sys2Proof.Machine

open Sys2Proof

/-- The EVENTS_LOST record (R170). -/
def State.lostRecord (s : State) : EventRecord := { s.record .eventsLost with value := some s.loss }

/-- The queue after its oldest record is removed; while the loss count is not 0, EVENTS_LOST takes the freed slot and
the count returns to 0 (R170). -/
def State.removeOldest (s : State) (rest : List EventRecord) : State :=
  if s.loss = 0 then { s with events := rest } else { s with events := rest ++ [s.lostRecord], loss := 0 }

/-- POP_EVENT (R171). -/
def ownPopEvent (_ps : List Byte) (s : State) : Reply :=
  match s.events with
  | [] => s.refuse .empty
  | e :: rest => { state := s.removeOldest rest, status := .ok, bytes := e.report }

def execPopEvent (s : State) : Result := .next (s.command .popEvent Command.popEvent.code ownPopEvent)

/-- PEEK_EVENT (R171). -/
def ownPeekEvent (_ps : List Byte) (s : State) : Reply :=
  match s.events with
  | [] => s.refuse .empty
  | e :: _ => { state := s, status := .ok, bytes := e.report }

def execPeekEvent (s : State) : Result := .next (s.command .peekEvent Command.peekEvent.code ownPeekEvent)

/-- READ_EVENT_STATUS (R172, Table 44). -/
def ownReadEventStatus (_ps : List Byte) (s : State) : Reply where
  state := s
  status := .ok
  bytes := encodeLE 1 s.events.length ++ encodeLE 1 s.enabledRecords ++ encodeLE 2 s.loss ++ encodeLE 2 s.mask.toNat
    ++ encodeLE 1 s.attnLow.toNat

def execReadEventStatus (s : State) : Result :=
  .next (s.command .readEventStatus Command.readEventStatus.code ownReadEventStatus)

/-- SET_ATTENTION_MASK (R173): a bit assigned to no kind is refused. ATTN# is a view of the queue and the mask, so it
is decided afresh (R174). -/
def ownSetAttentionMask (ps : List Byte) (s : State) : Reply :=
  if argLE ps 0 2 < 2 ^ 14 then { state := { s with mask := BitVec.ofNat 14 (argLE ps 0 2) }, status := .ok }
  else s.refuse .badValue

def execSetAttentionMask (b : Byte) (s : State) : Result :=
  .next (s.command .setAttentionMask b ownSetAttentionMask)

end Sys2Proof.Machine
end

