-- ==== Sys2Proof/Machine/LinkPacing.lean ====
section
/-! DEFINITION. The management commands over the Pacing Link Table: SET_PACING, CLEAR_PACING and READ_PACING. -/

namespace Sys2Proof.Machine

open Sys2Proof

/-- The link that SET_PACING's parameters make, ARMED unless the leader is FAULTED (R96, R97). -/
def State.newLink (s : State) (ps : List Byte) (leader : Ctx) : PacingLink where
  leader := leader
  gap := argLE ps 2 2
  lead := if argLE ps 4 2 = 0 then none else some (argLE ps 4 2)
  state := if (s.context leader).state = .faulted then .broken else .armed

/-- The lead limit is absent or greater than the gap (R96, check 4). -/
def PacingLink.limitOk (l : PacingLink) : Bool :=
  match l.lead with
  | none => true
  | some n => l.gap < n

/-- The checks of SET_PACING after the indices, in order (R96). The cycle check follows the links from the new
leader in the table as it would stand with the command accepted; a path of more than eight contexts would repeat
one. -/
def State.pacingCheck (s : State) (f : Ctx) (l : PacingLink) : Option Status :=
  if l.leader = f then some .loop
  else if (s.setPacing f (some l)).pathReaches f 8 l.leader then some .loop
  else if !l.limitOk then some .limit
  else none

/-- SET_PACING (R96, R97): the link is written, a follower whose link is BROKEN has its heads answered (R107), and
every hold is decided afresh. -/
def ownSetPacing (ps : List Byte) (s : State) : Reply :=
  match indexOf 8 (argByte ps 0), indexOf 8 (argByte ps 1) with
  | some f, some leader =>
    match s.pacingCheck f (s.newLink ps leader) with
    | some e => s.refuse e
    | none => { state := ((s.setPacing f (some (s.newLink ps leader))).promote f).settle, status := .ok }
  | _, _ => s.refuse .badIndex

def execSetPacing (b : Byte) (s : State) : Result := .next (s.command .setPacing b ownSetPacing)

/-- CLEAR_PACING (R98): the reply gives the number of links removed. -/
def ownClearPacing (ps : List Byte) (s : State) : Reply :=
  match indexOf 8 (argByte ps 0) with
  | none => s.refuse .badIndex
  | some f =>
    { state := (s.setPacing f none).settle, status := .ok, bytes := encodeLE 1 (s.pacing f).isSome.toNat }

def execClearPacing (b : Byte) (s : State) : Result := .next (s.command .clearPacing b ownClearPacing)

/-- Link state codes (Table 44). -/
def LinkState.code : LinkState → Nat
  | .armed => 1
  | .broken => 2

/-- The 19 reply bytes of READ_PACING (R99, Table 44). -/
def State.pacingReport (s : State) (f : Ctx) : List Byte :=
  match s.pacing f with
  | none => List.replicate 7 0 ++ encodeLE 6 (s.context f).progress ++ encodeLE 6 0
  | some l =>
    encodeLE 1 1 ++ encodeLE 1 l.leader ++ encodeLE 2 l.gap ++ encodeLE 2 (l.lead.getD 0) ++ encodeLE 1 l.state.code
      ++ encodeLE 6 (s.context f).progress ++ encodeLE 6 (s.context l.leader).progress

/-- READ_PACING (R99). -/
def ownReadPacing (ps : List Byte) (s : State) : Reply :=
  match indexOf 8 (argByte ps 0) with
  | none => s.refuse .badIndex
  | some f => { state := s, status := .ok, bytes := s.pacingReport f }

def execReadPacing (b : Byte) (s : State) : Result := .next (s.command .readPacing b ownReadPacing)

end Sys2Proof.Machine
end

