-- ==== Sys2Proof/Machine/LinkTables.lean ====
section
/-! DEFINITION. The management commands over the part's identity, the Descriptor Table and the Aperture Table:
IDENTIFY, READ_DESC, CLEAR_DESC, SET_APERTURE and READ_APERTURE. -/

namespace Sys2Proof.Machine

open Sys2Proof

/-- The seven reply bytes of IDENTIFY (R160, Table 44). -/
def State.identity (s : State) : List Byte :=
  encodeLE 2 Config.partId ++ encodeLE 1 8 ++ encodeLE 1 64 ++ encodeLE 1 8 ++ encodeLE 1 s.strap.toNat
    ++ [s.linkAddress]

/-- IDENTIFY (R160). -/
def ownIdentify (_ps : List Byte) (s : State) : Reply := { state := s, status := .ok, bytes := s.identity }

def execIdentify (s : State) : Result := .next (s.command .identify Command.identify.code ownIdentify)

/-- READ_DESC (R7). -/
def ownReadDesc (ps : List Byte) (s : State) : Reply :=
  match indexOf 64 (argByte ps 0) with
  | none => s.refuse .badIndex
  | some i => { state := s, status := .ok, bytes := (s.desc i).report }

def execReadDesc (b : Byte) (s : State) : Result := .next (s.command .readDesc b ownReadDesc)

/-- CLEAR_DESC (R6). -/
def ownClearDesc (ps : List Byte) (s : State) : Reply :=
  match indexOf 64 (argByte ps 0) with
  | none => s.refuse .badIndex
  | some i => { state := s.setDesc i .cleared, status := .ok }

def execClearDesc (b : Byte) (s : State) : Result := .next (s.command .clearDesc b ownClearDesc)

/-- The aperture record that SET_APERTURE's parameters give (R119, Table 40). -/
def apertureOf (ps : List Byte) (c : Ctx) : Aperture where
  base := BitVec.ofNat 32 (argLE ps 1 4)
  sizeExp := argByte ps 5
  context := c
  enabled := argByte ps 7 == 1

/-- SIZE, BASE and ENABLED have accepted values (R119, check 2). -/
def apertureValues (ps : List Byte) : Bool :=
  12 ≤ argByte ps 5 && argByte ps 5 ≤ 28 && argLE ps 1 4 % 2 ^ argByte ps 5 == 0 && argByte ps 7 ≤ 1

/-- The range of a record overlaps an enabled aperture other than record `i` (R119, check 4). -/
def State.meetsOther (s : State) (i : ApIx) (r : Region) : Bool :=
  (List.finRange 8).any fun j => j != i && (s.aperture j).enabled && r.meets (s.aperture j).range

/-- The range overlaps the target region of an ACTIVE or DRAINING context (R119, check 5). -/
def State.meetsTarget (s : State) (r : Region) : Bool :=
  allCtx.any fun c =>
    ((s.context c).state == .active || (s.context c).state == .draining) && (s.context c).region.any fun q => r.meets q

/-- The checks of SET_APERTURE in order: the status of the first that fails (R119). -/
def State.apertureCheck (s : State) (ps : List Byte) (i : ApIx) (a : Aperture) : Option Status :=
  if !apertureValues ps then some .badValue
  else if (s.aperture i).enabled && a.enabled then some .inUse
  else if a.enabled && s.meetsOther i a.range then some .overlap
  else if a.enabled && s.meetsTarget a.range then some .overlap
  else none

/-- SET_APERTURE (R119). -/
def ownSetAperture (ps : List Byte) (s : State) : Reply :=
  match indexOf 8 (argByte ps 0), indexOf 8 (argByte ps 6) with
  | some i, some c =>
    match s.apertureCheck ps i (apertureOf ps c) with
    | some e => s.refuse e
    | none => { state := s.setAperture i (apertureOf ps c), status := .ok }
  | _, _ => s.refuse .badIndex

def execSetAperture (b : Byte) (s : State) : Result := .next (s.command .setAperture b ownSetAperture)

/-- READ_APERTURE (R121). -/
def ownReadAperture (ps : List Byte) (s : State) : Reply :=
  match indexOf 8 (argByte ps 0) with
  | none => s.refuse .badIndex
  | some i => { state := s, status := .ok, bytes := (s.aperture i).report }

def execReadAperture (b : Byte) (s : State) : Result := .next (s.command .readAperture b ownReadAperture)

end Sys2Proof.Machine
end

