-- ==== Sys2Proof/Machine/Memory.lean ====
section
/-! DEFINITION. The ordering machinery (spec/08): the three admissions, ISSUE, MEMORY_REQUEST_TAKEN,
MEMORY_RESPONSE and MEMORY_TIMEOUT. -/

namespace Sys2Proof

open Sys2Proof.Machine

/-- The strobes of a passthrough write: as given on the addressed bytes, clear on the other bytes (R113, R126). -/
def HostRequest.busStrobes (r : HostRequest) : List Bool :=
  (List.range (4 * r.beats)).map fun i => r.strobes.getD i false && r.offset ≤ i && i < r.offset + r.length

/-- The data beats of a passthrough write (R126). -/
def HostRequest.busData (r : HostRequest) : List Byte :=
  (List.range (4 * r.beats)).map fun i => r.data.getD i (Config.absentByte i)

/-- The data of a passthrough read answered OKAY: memory's bytes at the addressed bytes, zero elsewhere (R115). -/
def HostRequest.responseData (r : HostRequest) (data : List Byte) : List Byte :=
  (List.range (4 * r.beats)).map fun i =>
    if r.offset ≤ i ∧ i < r.offset + r.length then data.getD i (Config.absentByte i) else 0

/-- The Issue Queue request of a passthrough transaction (R126). -/
def HostRequest.iqEntry (r : HostRequest) (t : HostTag) : IqEntry where
  kind := r.kind
  span := r.span
  data := match r.kind with
    | .read => []
    | .write => r.busData
  strobes := match r.kind with
    | .read => []
    | .write => r.busStrobes
  origin := .host t
  detached := false

end Sys2Proof

namespace Sys2Proof.Machine

open Sys2Proof

/-! ### Admission (R136, R137) -/

/-- An admission: the entry joins the tail of the Issue Queue and the pointer moves past the source (R136). -/
def State.enqueue (s : State) (p : Fin 17) (e : IqEntry) : State := { s with iq := s.iq ++ [e], pointer := p + 1 }

/-- The position of a source in the cycle (R136). -/
def Source.position : Source → Fin 17
  | .passthrough => 0
  | .readAhead c => Fin.ofNat 17 (1 + 2 * c.val)
  | .gather c => Fin.ofNat 17 (2 + 2 * c.val)

/-- The arbiter's next admission is from this source. -/
def State.admitsNext (s : State) (x : Source) : Bool := s.nextAdmission == some x.position

/-- The passthrough request on tag `t` is admitted (R126, R137): it leaves the FIFO, and a write marks the
read-ahead entries that its span overlaps (R64). -/
def State.admitPassthrough (s : State) (t : HostTag) (x : HostSlot) : State :=
  let s₁ := { s.enqueue 0 (x.req.iqEntry t) with fifo := s.fifo.tail }
  match x.req.kind with
  | .read => s₁
  | .write => s₁.markStale fun p => p.overlaps x.req.span

/-- PASSTHROUGH_ADMISSION (R126, R136): nothing happens unless the arbiter's next admission is the FIFO's. -/
def State.passthroughAdmission (s : State) : State :=
  if s.admitsNext .passthrough then
    match s.passCandidate with
    | some (t, x) => (s.admitPassthrough t x).settle
    | none => s
  else s

def execPassthroughAdmission (s : State) : Result := .next s.passthroughAdmission

/-- The Issue Queue request of a read-ahead entry (R62). -/
def readRequest (c : Ctx) (serial : BitVec 16) (e : Entry) : IqEntry where
  kind := .read
  span := e.span
  data := []
  strobes := []
  origin := .readAhead c serial e.seq
  detached := false

/-- The candidate of `c` is admitted (R62): its entry becomes REQUESTED. -/
def State.admitRead (s : State) (c : Ctx) (e : Entry) : State :=
  (s.enqueue (Source.readAhead c).position (readRequest c (s.context c).serial e)).setEntry c e.seq .requested

/-- READ_AHEAD_ADMISSION (R62, R136): nothing happens unless the arbiter's next admission is the candidate of `c`. -/
def State.readAheadAdmission (s : State) (c : Ctx) : State :=
  if s.admitsNext (.readAhead c) then
    match s.readCandidate c with
    | some e => (s.admitRead c e).settle
    | none => s
  else s

def execReadAheadAdmission (c : Ctx) (s : State) : Result := .next (s.readAheadAdmission c)

/-- The Issue Queue request of a gather line (R86). -/
def GatherLine.request (l : GatherLine) (c : Ctx) (serial : BitVec 16) : IqEntry where
  kind := .write
  span := l.span
  data := (List.range (4 * l.span.beats)).map fun i =>
    if l.valid.getLsbD (l.span.start - l.addr + i) then l.data.getD (l.span.start - l.addr + i) 0 else 0
  strobes := (List.range (4 * l.span.beats)).map fun i => l.valid.getLsbD (l.span.start - l.addr + i)
  origin := .gather c serial l.addr
  detached := false

/-- A line leaves its context: its slot frees, and it leaves every wait set (R83, R86). -/
def State.dropLine (s : State) (c : Ctx) (k : Fin 4) : State :=
  let x := s.context c
  { s.setContext c
      { x with lines := x.lines.filter fun l => l.slot != k, issuing := x.issuing.filter fun j => j != k } with
    fifo := s.fifo.map fun e => { e with waitSet := e.waitSet.filter fun m => m != (c, k) } }

/-- The first issuing line of `c` is admitted (R86). -/
def State.admitLine (s : State) (c : Ctx) (l : GatherLine) : State :=
  (s.enqueue (Source.gather c).position (l.request c (s.context c).serial)).dropLine c l.slot

/-- GATHER_LINE_ADMISSION (R86, R136): nothing happens unless the arbiter's next admission is the line of `c`. -/
def State.gatherLineAdmission (s : State) (c : Ctx) : State :=
  if s.admitsNext (.gather c) then
    match s.gatherCandidate c with
    | some l => (s.admitLine c l).settle
    | none => s
  else s

def execGatherLineAdmission (c : Ctx) (s : State) : Result := .next (s.gatherLineAdmission c)

/-! ### Issue and the request channel (R132, R138) -/

/-- The tracker entry of an issued request (R138, R140). -/
def IqEntry.tracked (e : IqEntry) (now : BitVec 32) : TrackEntry where
  kind := e.kind
  span := e.span
  origin := e.origin
  detached := e.detached
  state := .inFlight
  sent := now

/-- The memory request of an issued entry (R132, Table 30). -/
def IqEntry.placed (e : IqEntry) (t : MemTag) : MemRequest where
  kind := e.kind
  address := e.span.start
  beats := e.span.beats
  tag := t
  data := e.data
  strobes := e.strobes

/-- ISSUE (R138): with the request channel free, the oldest eligible entry takes the lowest free tag and is placed.
Nothing happens while the channel is busy, no tag is free, or no entry is eligible. -/
def State.issueNext (s : State) : State :=
  match s.channel, s.freeTag, s.pickIssue [] s.iq with
  | none, some t, some (before, e, after) =>
    { s.setTrack t (some (e.tracked s.timebase)) with iq := before ++ after, channel := some (e.placed t) }
  | _, _, _ => s

def execIssue (s : State) : Result := .next s.issueNext

/-- MEMORY_REQUEST_TAKEN: the request channel becomes free (R132). -/
def execMemoryRequestTaken (s : State) : Result := .next { s with channel := none }

/-! ### Responses (R141 to R144) -/

/-- The record of kind `k` about a tracker entry: the memory tag, the start beat, and the host tag or the context
and walk serial of its origin (R143, R145). -/
def State.trackRecord (s : State) (k : EventKind) (t : MemTag) (e : TrackEntry) : EventRecord :=
  let r : EventRecord := { s.record k with value := some t.val, address := some e.span.start }
  match e.origin with
  | .host h => { r with tag := some h }
  | .readAhead c n _ => { r with context := some c, serial := some n }
  | .gather c n _ => { r with context := some c, serial := some n }

/-- A passthrough transaction is answered OKAY with memory's bytes (R127). -/
def State.hostOkay (s : State) (h : HostTag) (data : List Byte) : State :=
  match s.slot h with
  | none => s
  | some x =>
    let bytes := match x.req.kind with
      | .read => x.req.responseData data
      | .write => []
    if x.answer.isSome then s else (s.setSlot h (some { x with readData := bytes })).answer h none

/-- The lanes of a fetched element, from the beats of its response (R55). -/
def Entry.fetched (e : Entry) (w : Nat) (data : List Byte) : Vector Byte 4 :=
  Vector.ofFn fun j : Fin 4 =>
    let i := e.addr - e.span.start + j.val
    if j.val < w then data.getD i (Config.absentByte i) else 0

/-- An OKAY response to an attached read: REQUESTED becomes FILLED, REQUESTED_STALE becomes PENDING (R65). -/
def State.readOkay (s : State) (c : Ctx) (seq : Nat) (data : List Byte) : State :=
  match s.outstanding c seq with
  | none => s
  | some e =>
    if e.state = .requested then
      s.setEntry c seq (.filled (e.fetched (((s.context c).snapshot.map Descriptor.memWidth).getD 0) data))
    else s.setEntry c seq .pending

/-- A response on an IN_FLIGHT entry, once its tag is free, goes to the entry's origin (R141, R142). -/
def State.deliver (s : State) (e : TrackEntry) (status : MemStatus) (data : List Byte) : State :=
  match e.origin, status with
  | .host h, .okay => s.hostOkay h data
  | .host h, .fault => s.answer h (some .memory)
  | .readAhead c _ n, .okay => if e.detached then s else s.readOkay c n data
  | .readAhead c k n, .fault => if e.detached then s else s.readFailed c k n .memory
  | .gather c _ _, .okay => if e.detached then s else s.drainIfDone c
  | .gather c k l, .fault => s.lineFailed c k l (!e.detached) .writeFault .memory

/-- A late response (R143). -/
def State.lateRecord (s : State) (t : MemTag) (e : TrackEntry) (status : MemStatus) : EventRecord :=
  { s.trackRecord .lateResponse t e with
    reason := match status with
      | .okay => none
      | .fault => some .memory }

/-- MEMORY_RESPONSE (R133, R141 to R144). No response is taken while RST# is low (R148). -/
def State.response (s : State) (t : MemTag) (status : MemStatus) (data : List Byte) : State :=
  if s.rstLow then s
  else
    match s.track t with
    | none => s.post { s.record .strayResponse with value := some t.val }
    | some e =>
      let s₁ := s.setTrack t none
      match e.state with
      | .quarantined => s₁.post (s.lateRecord t e status)
      | .inFlight => (s₁.deliver e status data).settle

def execMemoryResponse (t : MemTag) (status : MemStatus) (data : List Byte) (s : State) : Result :=
  .next (s.response t status data)

/-! ### Timeouts (R145, R146) -/

/-- The origin of a quarantined request is told of its failure (R145). -/
def State.tellTimeout (s : State) (e : TrackEntry) : State :=
  match e.origin with
  | .host h => s.answer h (some .memoryTimeout)
  | .readAhead c k n => if e.detached then s else s.readFailed c k n .memoryTimeout
  | .gather c k l => s.lineFailed c k l (!e.detached) .memoryTimeout .memoryTimeout

/-- The quarantine of the entry on tag `t`: MEMORY_TIMEOUT is posted, the origin is told, and TRACKER_BLOCKED is
posted when all 32 tags are QUARANTINED; its place among the origin's records is free (R145, R146; log entry 9). -/
def State.quarantine (s : State) (t : MemTag) (e : TrackEntry) : State :=
  let s₁ := (s.setTrack t (some { e with state := .quarantined })).post (s.trackRecord .memoryTimeout t e)
  if s₁.quarantined = 32 then
    let s₂ := { s₁ with choices := s.choices + 1 }
    if Config.blockedFirst s.choices then (s₂.post (s.record .trackerBlocked)).tellTimeout e
    else (s₂.tellTimeout e).post (s.record .trackerBlocked)
  else s₁.tellTimeout e

/-- Quarantines the request on tag `t` if its time has run out (R145). -/
def State.timeoutRequest (s : State) (t : MemTag) : State :=
  match s.track t with
  | some e => if s.requestTimedOut t then s.quarantine t e else s
  | none => s

/-- MEMORY_TIMEOUT (R145): nothing happens unless the request on the tag is in flight for longer than
MEM_TIMEOUT_US. -/
def execMemoryTimeout (t : MemTag) (s : State) : Result :=
  .next (if s.requestTimedOut t then (s.timeoutRequest t).settle else s)

end Sys2Proof.Machine
end

