-- ==== Sys2Proof/Machine/Walk.lean ====
section
/-! DEFINITION. The walk contexts' own events: ELEMENT_TAKE, DRAIN_COMPLETE, PACE_TIMEOUT and GATHER_AGE_EXPIRY. -/

namespace Sys2Proof.Machine

open Sys2Proof

/-- Writes bytes into a list from a position on. -/
def writeBytes : List Byte → Nat → List Byte → List Byte
  | l, _, [] => l
  | l, i, b :: bs => writeBytes (l.set i b) (i + 1) bs

/-- An element that is about to be taken: the walk, its take position, and the head with its host tag. -/
structure Taking where
  d : Descriptor
  pos : Vector Nat 4
  tag : HostTag
  head : HostSlot
  deriving DecidableEq, Repr

/-- The element that the head of `c` waits to take: the context is ACTIVE with a checked head that still needs
elements, and the walk is not exhausted (R37, R38). -/
def State.nextElement (s : State) (c : Ctx) : Option Taking :=
  match (s.context c).state, (s.context c).snapshot, (s.context c).take, s.head c with
  | .active, some d, .at p, some (t, x) => if 0 < s.demand c then some { d := d, pos := p, tag := t, head := x } else none
  | _, _, _, _ => none

/-- Step 2 of the taking lets the element go on: the oldest entry is FILLED or POISONED, or the gather lines accept
the element (R69, R77). -/
def Context.dataOrSpace (x : Context) (d : Descriptor) (p : Vector Nat 4) : Bool :=
  match d.direction with
  | .read =>
    match x.entries.head?.map Entry.state with
    | some (.filled _) | some .poisoned => true
    | _ => false
  | .write => x.lacking (d.linesNeeded (d.address p).toNat) == 0

/-- Steps 1 and 2 let the head's element be taken (R38). -/
def State.mayTake (s : State) (c : Ctx) (k : Taking) : Bool :=
  s.paceStep c == .pass && (s.context c).dataOrSpace k.d k.pos

/-- The position in the request's beats of the slot of the next element (R123). -/
def Taking.place (k : Taking) : Nat :=
  k.head.req.offset + k.head.req.elementSlot k.d.hostSize k.head.taken * k.d.hostSize

/-- The head's slot after a read element: its host bytes placed, zero bytes and the poisoned mark for a POISONED
entry (R47, R49). -/
def Taking.readSlot (k : Taking) (e : Option EntryState) : HostSlot :=
  match e with
  | some (.filled data) =>
    { k.head with
      taken := k.head.taken + 1
      readData := writeBytes k.head.readData k.place (k.d.hostBytes data) }
  | _ =>
    { k.head with
      taken := k.head.taken + 1
      readData := writeBytes k.head.readData k.place (List.replicate k.d.hostSize 0)
      poisoned := true }

/-- The memory bytes of the next write element (R50, R51). -/
def Taking.bytes (k : Taking) : List (Nat × Byte) :=
  k.d.memoryBytes (k.d.address k.pos).toNat
    (k.head.req.slotBytes k.d.hostSize (k.head.req.elementSlot k.d.hostSize k.head.taken))

/-- Step 3: the element moves between the host transaction and the read-ahead entry or the gather lines (R38). The
write range of a line grows only by a merge, so a merge begins to overlap an entry exactly when the range of a line
that it merged into does (R56, R63, R68; log entry 15). -/
def State.moveElement (s : State) (c : Ctx) (k : Taking) : State :=
  let x := s.context c
  match k.d.direction with
  | .read =>
    (s.setSlot k.tag (some (k.readSlot (x.entries.head?.map Entry.state)))).setContext c { x with entries := x.entries.tail }
  | .write =>
    let y := x.mergeBytes s.timebase k.bytes
    let s₁ := (s.setSlot k.tag (some { k.head with taken := k.head.taken + 1 })).setContext c y.issueFull
    s₁.markStale fun p => (y.mergedLines k.bytes).any fun l => l.span.overlaps p

/-- The MARK record (R15, R168). -/
def State.markRecord (s : State) (c : Ctx) : EventRecord :=
  { s.record .mark with
    context := some c
    serial := some (s.context c).serial
    value := some (s.context c).progress }

/-- Step 4: the take position advances, progress rises by 1, the pass count counts a wrap, and the MARK check
follows (R12 to R15, R25, R38). -/
def State.advanceTake (s : State) (c : Ctx) (k : Taking) : State :=
  let x := s.context c
  let next := k.d.advance k.pos
  let s₁ := s.setContext c
    { x with
      take := next.1
      progress := x.progress + 1
      passes := if next.2 then x.passes + 1 else x.passes
      hold := .none
      shortfall := 0 }
  if k.d.mark = some (k.d.ordinal k.pos) then s₁.post (s₁.markRecord c) else s₁

/-- The reason with which a head that has all its elements is answered: MEMORY if one came from a POISONED entry,
otherwise none, for OKAY (R40). -/
def State.headReason (s : State) (c : Ctx) : Option HostReason :=
  match s.head c with
  | some (_, x) => if x.poisoned then some .memory else none
  | none => none

/-- Finishes the head if it still needs elements (R25, R41), before the walk ends; for LIMIT that order is log entry
26. -/
def State.cutHead (s : State) (c : Ctx) (why : HostReason) : State :=
  if 0 < s.demand c then s.finishHead c (some why) else s

/-- After the advance: the head is answered if it has all its elements (R40); the exhaustion of the take position
ends the walk EXHAUSTED (R13, R41), or progress at 2^48 − 1 ends it LIMIT (R25); otherwise the next head, if the
head was answered, meets its checks (R37). Where the element that completes a head also ends the walk, the
transaction behind it is not checked under the walk that ends: it waits for the next walk (the model's choice, log
entry 25). -/
def State.afterTake (s : State) (c : Ctx) : State :=
  let s₁ := if s.demand c = 0 then s.finishHead c (s.headReason c) else s
  if (s₁.context c).take = .exhausted then (s₁.cutHead c .overrun).endWalk c .exhausted
  else if (s₁.context c).progress = Config.progressLimit then (s₁.cutHead c .ended).endWalk c .limit
  else s₁.promote c

/-- ELEMENT_TAKE: the head of `c` tries its next element, and takes it when neither the pacing step nor the
data-or-space step holds it (R38). -/
def State.elementTake (s : State) (c : Ctx) : State :=
  match s.nextElement c with
  | none => s.settle
  | some k =>
    if s.mayTake c k then (((s.moveElement c k).advanceTake c k).afterTake c).settle else s.settle

def execElementTake (c : Ctx) (s : State) : Result := .next (s.elementTake c)

/-- DRAIN_COMPLETE (R29, R30). The event in which the last attached write is answered completes the drain itself
(R89), so this command finds something to do only in a state that stands between the two (log entry 7). -/
def execDrainComplete (c : Ctx) (s : State) : Result := .next (if s.drained c then (s.completeDrain c).settle else s)

/-- The head of `c` is finished early while the walk goes on (R42): the heads after it meet their checks. -/
def State.finishEarly (s : State) (c : Ctx) (why : HostReason) : State := (s.finishHead c (some why)).promote c

/-- PACE_TIMEOUT (R105): nothing happens unless the head has been held for longer than PACE_LIMIT_US. -/
def execPaceTimeout (c : Ctx) (s : State) : Result :=
  .next (if s.headTimedOut c then (s.finishEarly c .paceTimeout).settle else s)

/-- Makes ISSUING the lines of the context that the test selects. -/
def State.issueLines (s : State) (c : Ctx) (p : GatherLine → Bool) : State :=
  let x := s.context c
  s.setContext c { x with lines := x.lines.map fun l => if p l then l.issue else l }

/-- GATHER_AGE_EXPIRY (R80): nothing happens unless the context holds an OPEN line at that address whose age has
reached GATHER_AGE_US. Each line has an event of its own, also where several reach the limit at one Timebase value (the
model's choice, log entry 28). -/
def execGatherAgeExpiry (c : Ctx) (line : BitVec 32) (s : State) : Result :=
  .next (if (s.context c).lines.any fun l => l.addr == line.toNat && s.lineAged l then
    (s.issueLines c fun l => l.addr == line.toNat && s.lineAged l).settle else s)

end Sys2Proof.Machine
end

