-- ==== Sys2Proof/Machine/LinkTimers.lean ====
section
/-! DEFINITION. The settings: SET_TIMERS and READ_TIMERS (spec/09, R161 to R164). -/

namespace Sys2Proof.Machine

open Sys2Proof

/-- The settings that SET_TIMERS's parameters give (R163). -/
def settingsOf (ps : List Byte) : Settings where
  clockMhz := argByte ps 0
  memTimeoutUs := argLE ps 1 2
  paceLimitUs := argLE ps 3 3
  gatherAgeUs := argLE ps 6 2

/-- A timer has a new value to be compared against: its setting changes, and is not switched off (R163; log entry
21). -/
def renewed (old new : Nat) : Bool := new ≠ 0 && new ≠ old

/-- A timer, other than a line's age, that can run out in a SET_TIMERS. -/
inductive Timer where
  | head (c : Ctx)
  | request (t : MemTag)
  deriving DecidableEq, Repr

/-- The number by which `Config.expiryRank` ranks a timer. -/
def Timer.number : Timer → Nat
  | .head c => c.val
  | .request t => 8 + t.val

/-- The timers that have run out under their new settings (R105, R145, R163). -/
def State.expired (s : State) (old : Settings) : List Timer :=
  (if renewed old.paceLimitUs s.settings.paceLimitUs then (allCtx.filter s.headTimedOut).map Timer.head else [])
    ++ if renewed old.memTimeoutUs s.settings.memTimeoutUs then (allTags.filter s.requestTimedOut).map Timer.request
      else []

/-- Inserts an item before the first of a higher rank. -/
def insertRanked {α : Type} (rank : α → Nat) (a : α) : List α → List α
  | [] => [a]
  | b :: bs => if rank a < rank b then a :: b :: bs else b :: insertRanked rank a bs

/-- The items by ascending rank. -/
def sortRanked {α : Type} (rank : α → Nat) : List α → List α
  | [] => []
  | a :: as => insertRanked rank a (sortRanked rank as)

/-- One timer acts, if it has still run out when its turn comes (R105, R145). -/
def State.expire (s : State) : Timer → State
  | .head c => if s.headTimedOut c then (s.finishEarly c .paceTimeout).decideAfresh else s
  | .request t => if s.requestTimedOut t then (s.timeoutRequest t).decideAfresh else s

/-- Every OPEN line whose age has reached a new GATHER_AGE_US becomes ISSUING (R80, R163). -/
def State.ageLines (s : State) (old : Settings) : State :=
  if renewed old.gatherAgeUs s.settings.gatherAgeUs then
    s.mapContexts fun _ x => { x with lines := x.lines.map fun l => if s.lineAged l then l.issue else l }
  else s

/-- All four settings take their new values, and the timers are compared afresh (R163). The order in which heads and
requests that run out together act is free (log entry 8); the lines that the whole event sets ISSUING enter the
issuing order in opening order (R79). -/
def State.retime (s : State) (new : Settings) : State :=
  let s₁ := ({ s with settings := new, choices := s.choices + 1 }.ageLines s.settings).decideAfresh
  let due := sortRanked (fun i => Config.expiryRank s.choices i.number) (s₁.expired s.settings)
  (due.foldl State.expire s₁).mapContexts fun _ x => x.orderIssuing

/-- SET_TIMERS (R163). -/
def ownSetTimers (ps : List Byte) (s : State) : Reply :=
  if 25 ≤ argByte ps 0 ∧ argByte ps 0 ≤ 200 then { state := s.retime (settingsOf ps), status := .ok }
  else s.refuse .badValue

def execSetTimers (b : Byte) (s : State) : Result := .next (s.command .setTimers b ownSetTimers)

/-- READ_TIMERS (R164). -/
def ownReadTimers (_ps : List Byte) (s : State) : Reply :=
  { state := s, status := .ok, bytes := s.settings.report ++ encodeLE 4 s.timebase.toNat }

def execReadTimers (s : State) : Result := .next (s.command .readTimers Command.readTimers.code ownReadTimers)

end Sys2Proof.Machine
end

