-- ==== Sys2Proof/Machine/LinkWalk.lean ====
section
/-! DEFINITION. The management commands over the walk contexts: QUEUE_WALK, END_WALK, ABORT_WALK, CLEAR_FAULT,
FLUSH_LINES, READ_CONTEXT, and SOFT_RESET. -/

namespace Sys2Proof.Machine

open Sys2Proof

/-- QUEUE_WALK (R26): a launch at once in an IDLE context, otherwise an entry of the Launch Queue. -/
def ownQueueWalk (ps : List Byte) (s : State) : Reply :=
  match indexOf 8 (argByte ps 0), indexOf 64 (argByte ps 1) with
  | some c, some i =>
    let x := s.context c
    if x.state = .idle then { state := (s.launch c i).settle, status := .ok }
    else if x.launchQ.length < 4 then
      { state := s.setContext c { x with launchQ := x.launchQ ++ [i] }, status := .ok }
    else s.refuse .queueFull
  | _, _ => s.refuse .badIndex

def execQueueWalk (b : Byte) (s : State) : Result := .next (s.command .queueWalk b ownQueueWalk)

/-- The head of the context has taken at least one of its elements and not all (R31). -/
def State.partlyServed (s : State) (c : Ctx) : Bool :=
  match s.head c with
  | some (_, x) => 0 < x.taken && 0 < s.demand c
  | none => false

/-- END_WALK (R31). A partly served head is answered ENDED before the walk ends, so that its HOST_FAULT stands before the
WALK_DONE of a drain that completes in this event (the model's choice, log entry 26). -/
def ownEndWalk (ps : List Byte) (s : State) : Reply :=
  match indexOf 8 (argByte ps 0) with
  | none => s.refuse .badIndex
  | some c =>
    if (s.context c).state = .active then
      let s₁ := if s.partlyServed c then s.finishHead c (some .ended) else s
      { state := (s₁.endWalk c .ended).settle, status := .ok }
    else s.refuse .state

def execEndWalk (b : Byte) (s : State) : Result := .next (s.command .endWalk b ownEndWalk)

/-- ABORT_WALK (R32): the reply gives the number of lines discarded. -/
def ownAbortWalk (ps : List Byte) (s : State) : Reply :=
  match indexOf 8 (argByte ps 0) with
  | none => s.refuse .badIndex
  | some c =>
    if argByte ps 1 ≤ 1 then
      { state := ((s.abort c true (argByte ps 1 == 1)).launchNext c).settle
        status := .ok
        bytes := encodeLE 1 (s.context c).lines.length }
    else s.refuse .badValue

def execAbortWalk (b : Byte) (s : State) : Result := .next (s.command .abortWalk b ownAbortWalk)

/-- CLEAR_FAULT (R33). -/
def ownClearFault (ps : List Byte) (s : State) : Reply :=
  match indexOf 8 (argByte ps 0) with
  | none => s.refuse .badIndex
  | some c =>
    if (s.context c).state = .faulted then
      { state := ((s.setContext c { s.context c with state := .idle }).launchNext c).settle, status := .ok }
    else s.refuse .state

def execClearFault (b : Byte) (s : State) : Result := .next (s.command .clearFault b ownClearFault)

/-- FLUSH_LINES (R81): the reply gives the number of lines set ISSUING. -/
def ownFlushLines (ps : List Byte) (s : State) : Reply :=
  match indexOf 8 (argByte ps 0) with
  | none => s.refuse .badIndex
  | some c =>
    { state := (s.setContext c (s.context c).issueAll).settle
      status := .ok
      bytes := encodeLE 1 ((s.context c).lines.countP fun l => l.state == .opened) }

def execFlushLines (b : Byte) (s : State) : Result := .next (s.command .flushLines b ownFlushLines)

/-- READ_CONTEXT (R43). -/
def ownReadContext (ps : List Byte) (s : State) : Reply :=
  match indexOf 8 (argByte ps 0) with
  | none => s.refuse .badIndex
  | some c => { state := s, status := .ok, bytes := (s.context c).report (s.headReport c) }

def execReadContext (b : Byte) (s : State) : Result := .next (s.command .readContext b ownReadContext)

/-- The gather lines of every context (R165). -/
def State.lineCount (s : State) : Nat := (allCtx.map fun c => (s.context c).lines.length).sum

/-- Every pacing link ARMED (R110). -/
def State.armAll (s : State) : State :=
  { s with links := Vector.ofFn fun f => (s.pacing f).map fun l => { l with state := .armed } }

/-- The aborts of SOFT_RESET, contexts 0 to 7 in ascending order, with purge and without a link break (R110, R165). -/
def State.abortAll (s : State) : State := allCtx.foldl (fun s c => s.abort c false true) s

/-- SOFT_RESET (R44, R110, R130, R149, R165, R175). -/
def ownSoftReset (_ps : List Byte) (s : State) : Reply where
  state := ((s.abortAll.armAll).post { s.record .softResetDone with value := some s.lineCount }).settle
  status := .ok
  bytes := encodeLE 1 s.lineCount

def execSoftReset (s : State) : Result := .next (s.command .softReset Command.softReset.code ownSoftReset)

end Sys2Proof.Machine
end

