-- ==== Sys2Proof/Machine/ResetTime.lean ====
section
/-! DEFINITION. HARDWARE_RESET, RST_RISE and TIMEBASE_TICK. -/

namespace Sys2Proof.Machine

open Sys2Proof

/-- HARDWARE_RESET: RST# low puts every block in its reset state; the level of MSEL# and the commands that wait are
outside the part (R2, R22, R74, R92, R95, R118, R129, R148, R153, R161, R162, R175). -/
def State.hardwareReset (s : State) : State :=
  { State.reset with rstLow := true, mselLow := s.mselLow, choices := s.choices, pending := s.pending }

def execHardwareReset (s : State) : Result := .next s.hardwareReset

/-- RST_RISE: RST# rises, and the strap is sampled (R152). No frame begins by it (R153), and the Timebase counts
from the value 0 that the reset left (R162). -/
def execRstRise (laddr : BitVec 2) (s : State) : Result := .next { s with rstLow := false, strap := laddr }

/-- TIMEBASE_TICK: a microsecond has completed. The next one is counted at CLOCK_MHZ as it stands (R162). While RST#
is low the Timebase does not count. -/
def execTimebaseTick (s : State) : Result :=
  .next (if s.rstLow then s else { s with timebase := s.timebase + 1, usLength := s.settings.clockMhz })

end Sys2Proof.Machine
end

