-- ==== Sys2Proof/Machine/Dispatch.lean ====
section
/-! DEFINITION. The dispatch of commands to their meanings, one arm per row of spec/opcode_table.json. -/

namespace Sys2Proof.Machine

open Sys2Proof

def exec (i : Instr) (s : State) : Host.Outcome State Fault Refusal :=
  match i with
  | .hardwareReset => Sys2Proof.Machine.execHardwareReset s
  | .rstRise laddr => Sys2Proof.Machine.execRstRise laddr s
  | .timebaseTick => Sys2Proof.Machine.execTimebaseTick s
  | .hostRequestArrival r => Sys2Proof.Machine.execHostRequestArrival r s
  | .hostResponseSent => Sys2Proof.Machine.execHostResponseSent s
  | .elementTake c => Sys2Proof.Machine.execElementTake c s
  | .drainComplete c => Sys2Proof.Machine.execDrainComplete c s
  | .passthroughAdmission => Sys2Proof.Machine.execPassthroughAdmission s
  | .readAheadAdmission c => Sys2Proof.Machine.execReadAheadAdmission c s
  | .gatherLineAdmission c => Sys2Proof.Machine.execGatherLineAdmission c s
  | .issue => Sys2Proof.Machine.execIssue s
  | .memoryRequestTaken => Sys2Proof.Machine.execMemoryRequestTaken s
  | .memoryResponse t status data => Sys2Proof.Machine.execMemoryResponse t status data s
  | .memoryTimeout t => Sys2Proof.Machine.execMemoryTimeout t s
  | .gatherAgeExpiry c line => Sys2Proof.Machine.execGatherAgeExpiry c line s
  | .paceTimeout c => Sys2Proof.Machine.execPaceTimeout c s
  | .frameEnd => Sys2Proof.Machine.execFrameEnd s
  | .unknownCommand b => Sys2Proof.Machine.execUnknownCommand b s
  | .identify => Sys2Proof.Machine.execIdentify s
  | .writeDesc b => Sys2Proof.Machine.execWriteDesc b s
  | .readDesc b => Sys2Proof.Machine.execReadDesc b s
  | .clearDesc b => Sys2Proof.Machine.execClearDesc b s
  | .setAperture b => Sys2Proof.Machine.execSetAperture b s
  | .readAperture b => Sys2Proof.Machine.execReadAperture b s
  | .queueWalk b => Sys2Proof.Machine.execQueueWalk b s
  | .endWalk b => Sys2Proof.Machine.execEndWalk b s
  | .abortWalk b => Sys2Proof.Machine.execAbortWalk b s
  | .clearFault b => Sys2Proof.Machine.execClearFault b s
  | .flushLines b => Sys2Proof.Machine.execFlushLines b s
  | .readContext b => Sys2Proof.Machine.execReadContext b s
  | .setPacing b => Sys2Proof.Machine.execSetPacing b s
  | .clearPacing b => Sys2Proof.Machine.execClearPacing b s
  | .readPacing b => Sys2Proof.Machine.execReadPacing b s
  | .setTimers b => Sys2Proof.Machine.execSetTimers b s
  | .readTimers => Sys2Proof.Machine.execReadTimers s
  | .popEvent => Sys2Proof.Machine.execPopEvent s
  | .peekEvent => Sys2Proof.Machine.execPeekEvent s
  | .readEventStatus => Sys2Proof.Machine.execReadEventStatus s
  | .setAttentionMask b => Sys2Proof.Machine.execSetAttentionMask b s
  | .softReset => Sys2Proof.Machine.execSoftReset s
  | .frameBegin => Sys2Proof.Machine.execFrameBegin s
  | .linkByteComplete b => Sys2Proof.Machine.execLinkByteComplete b s

end Sys2Proof.Machine
end

