-- ==== Sys2Proof/WellFormed.lean ====
section
/-! DEFINITION. Well-formed commands: the operands that the ports and the link can carry. -/

namespace Sys2Proof

/-- A host request as Table 25 gives it: 1 to 16 beats, size 1, 2 or 4 for a single beat, and for a write one data
byte and one strobe per byte of its beats; a read carries neither. -/
def HostRequest.wf (r : HostRequest) : Bool :=
  1 ≤ r.beats && r.beats ≤ 16
    && (r.beats != 1 || r.size == 1 || r.size == 2 || r.size == 4)
    && match r.kind with
      | .read => r.data.isEmpty && r.strobes.isEmpty
      | .write => r.data.length == 4 * r.beats && r.strobes.length == 4 * r.beats

/-- A command with operands that can occur: a well-formed request; at most 16 whole beats of response data (R133);
a line address that is a multiple of 32 (R76); a command code that names no command (R154). -/
def Instr.wf : Instr → Bool
  | .hostRequestArrival r => r.wf
  | .memoryResponse _ _ data => data.length % 4 == 0 && data.length ≤ 64
  | .gatherAgeExpiry _ line => line.toNat % 32 == 0
  | .unknownCommand b => (Machine.Command.ofCode b).isNone
  | .hardwareReset | .rstRise _ | .timebaseTick | .hostResponseSent | .elementTake _ | .drainComplete _
  | .passthroughAdmission | .readAheadAdmission _ | .gatherLineAdmission _ | .issue | .memoryRequestTaken
  | .memoryTimeout _ | .paceTimeout _ | .frameEnd | .identify | .writeDesc _ | .readDesc _ | .clearDesc _
  | .setAperture _ | .readAperture _ | .queueWalk _ | .endWalk _ | .abortWalk _ | .clearFault _ | .flushLines _
  | .readContext _ | .setPacing _ | .clearPacing _ | .readPacing _ | .setTimers _ | .readTimers | .popEvent
  | .peekEvent | .readEventStatus | .setAttentionMask _ | .softReset | .frameBegin | .linkByteComplete _ => true

end Sys2Proof
end

