-- ==== Sys2Proof/Safety.lean ====
section
/-! DEFINITION. The terms that the claims use: what a state may differ in after its waits are decided afresh, the
laws that hold of every reachable state, and the bytes that bring a management command about. -/

namespace Sys2Proof.Machine

open Sys2Proof

/-! ### What `settle` may change (R39, R58, R59, R61, R78, R79, R104) -/

/-- `y` is `x` with its waits decided afresh: read-ahead entries are created at the fetch cursor and none leaves,
OPEN lines may have become ISSUING and joined the issuing order, the hold is decided; every other field is as it
was. -/
structure Context.Resettled (x y : Context) : Prop where
  rest : y = { x with
    cursor := y.cursor, hold := y.hold, holdStart := y.holdStart, shortfall := y.shortfall, entries := y.entries,
    lines := y.lines, issuing := y.issuing }
  entries : x.entries <+: y.entries
  lines : y.lines.map GatherLine.issue = x.lines.map GatherLine.issue
  stay : ∀ l ∈ x.lines, l.state = .issuing → l ∈ y.lines
  issuing : x.issuing <+: y.issuing

/-- `t` is `s` with the waits of every context decided afresh, and nothing else changed. -/
structure State.Resettled (s t : State) : Prop where
  rest : t = { s with ctx := t.ctx }
  contexts : ∀ c, (s.context c).Resettled (t.context c)

/-- `y` runs the same walk as `x`, at the same place and with the same transactions waiting: every field but the
read-ahead entries and their cursor, the gather lines and their order, and the hold. -/
def Context.SameWalk (x y : Context) : Prop :=
  y = { x with
    cursor := y.cursor, hold := y.hold, holdStart := y.holdStart, shortfall := y.shortfall, entries := y.entries,
    lines := y.lines, issuing := y.issuing }

/-- The position `n` advances ahead (R12, R57). -/
def Descriptor.ahead (d : Descriptor) : Nat → WalkPos → WalkPos
  | 0, p => p
  | _ + 1, .exhausted => .exhausted
  | n + 1, .at c => d.ahead n (d.advance c).1

/-- R55, R57, R59: the entries that `y` holds beyond those of `x` are PENDING and stand, in order, for the elements at
the fetch cursor of `x`, each with its span; the cursor has moved past them. -/
structure Context.Created (d : Descriptor) (x y : Context) : Prop where
  cursor : y.cursor = d.ahead (y.entries.length - x.entries.length) x.cursor
  entry : ∀ i e, y.entries[x.entries.length + i]? = some e → ∃ p, d.ahead i x.cursor = .at p
    ∧ e.addr = (d.address p).toNat ∧ e.ordinal = d.ordinal p ∧ e.state = .pending
    ∧ e.seq = x.progress + x.entries.length + i
    ∧ e.span = { start := e.addr - e.addr % 4, beats := if e.addr % 4 + d.memWidth ≤ 4 then 1 else 2 }

/-- A read-ahead candidate of some context lies under the line (R61). -/
def State.overCandidate (t : State) (l : GatherLine) : Bool :=
  allCtx.any fun c => (t.context c).candidate.any fun e => l.span.overlaps e.span

/-- The elements that a walk with the context's progress can still yield (R58). -/
def Context.left (x : Context) (d : Descriptor) : Nat :=
  if d.endless then 2 ^ 48 - 1 - x.progress else d.positions - d.startOrdinal - x.progress

/-- What deciding the waits afresh makes of `s`: every Read-Ahead Queue of an ACTIVE read walk reaches its fill target
at the fetch cursor and no other queue changes (R58, R59); the lines over a candidate are ISSUING, and, where no
element waits with hold LINE, no other line changes (R61); the lines that became ISSUING stand in the issuing order,
in opening order (R79). -/
structure State.Settles (s t : State) : Prop where
  resettled : s.Resettled t
  filled : ∀ c d, (s.context c).state = .active → (s.context c).snapshot = some d → d.direction = .read →
    let target := min 8 (min ((s.context c).left d) (d.readAhead + s.demand c))
    (s.context c).Created d (t.context c)
      ∧ (t.context c).entries.length ≤ max (s.context c).entries.length target
      ∧ (target ≤ (t.context c).entries.length ∨ (t.context c).cursor = .exhausted)
  unfilled : ∀ c, ((s.context c).state ≠ .active ∨ (s.context c).snapshot.map Descriptor.direction ≠ some .read) →
    (t.context c).entries = (s.context c).entries ∧ (t.context c).cursor = (s.context c).cursor
  flushed : ∀ c, ∀ l ∈ (t.context c).lines, t.overCandidate l = true → l.state = .issuing
  lines : ∀ c, (t.context c).hold ≠ .line →
    (t.context c).lines = (s.context c).lines.map fun l => if t.overCandidate l = true then l.issue else l
  order : ∀ c, (t.context c).issuing = (s.context c).issuing
    ++ ((t.context c).lines.filter fun l => l.state == .issuing && !(s.context c).issuing.contains l.slot).map
      GatherLine.slot

/-- The follower condition holds the next element of `c`: its ARMED link's leader is not far enough ahead (R100). -/
def State.Behind (s : State) (c : Ctx) : Prop :=
  ∃ l, s.pacing c = some l ∧ l.state = .armed
    ∧ (s.context l.leader).progress < (s.context c).progress + 1 + l.gap

/-- A lead limit holds the next element of `c`: an ARMED link that it leads, with an ACTIVE follower (R101). -/
def State.LeadLimited (s : State) (c : Ctx) : Prop :=
  ∃ f l n, s.pacing f = some l ∧ l.leader = c ∧ l.state = .armed ∧ (s.context f).state = .active ∧ l.lead = some n
    ∧ (s.context f).progress + n ≤ (s.context c).progress

/-- In `t` the hold of every head that waits for an element, and follows no BROKEN link, stands as step 1 and step 2
decide it in `t` (R39, R103), and the hold start time of a context that kept its transactions has changed from `s` only
where the hold has become PACE or LEAD from another value (R39). -/
structure State.HoldsAfresh (s t : State) : Prop where
  pace : ∀ c k, t.nextElement c = some k → (∀ l, t.pacing c = some l → l.state = .armed) → t.Behind c →
    (t.context c).hold = .pace
  lead : ∀ c k, t.nextElement c = some k → (∀ l, t.pacing c = some l → l.state = .armed) → ¬ t.Behind c →
    t.LeadLimited c → (t.context c).hold = .lead
  data : ∀ c k, t.nextElement c = some k → (∀ l, t.pacing c = some l → l.state = .armed) → ¬ t.Behind c →
    ¬ t.LeadLimited c → k.d.direction = .read →
    ((t.context c).hold = .none ∨ (t.context c).hold = .data)
      ∧ ((t.context c).hold = .none ↔ ∃ e rest, (t.context c).entries = e :: rest ∧
        ((∃ data, e.state = .filled data) ∨ e.state = .poisoned))
  line : ∀ c k, t.nextElement c = some k → (∀ l, t.pacing c = some l → l.state = .armed) → ¬ t.Behind c →
    ¬ t.LeadLimited c → k.d.direction = .write →
    ((t.context c).hold = .none ∨ (t.context c).hold = .line)
      ∧ ((t.context c).hold = .none ↔
        ((k.d.linesNeeded (k.d.address k.pos).toNat).filter fun a => !(t.context c).hasOpen a).length
          ≤ 4 - (t.context c).lines.length)
  start : ∀ c, (t.context c).service = (s.context c).service → (t.context c).holdStart =
    if ((t.context c).hold = .pace ∨ (t.context c).hold = .lead) ∧ (t.context c).hold ≠ (s.context c).hold
      then s.timebase else (s.context c).holdStart

/-! ### Answers to a whole Service Queue, and link breaks (R36, R106, R107) -/

/-- The transactions are distinct and every one is OPEN. -/
def State.Waits (s : State) (q : List HostTag) : Prop :=
  q.Nodup ∧ ∀ u ∈ q, ∃ x, s.slot u = some x ∧ x.answer = none

/-- From `s` to `t` the transactions are answered FAULT with one reason, in this order and before any other, with the
data they had collected, and HOST_FAULT is posted for each (R36, R128). -/
def State.AnsweredFault (s t : State) (q : List HostTag) (why : HostReason) : Prop :=
  (s.responses ++ q) <+: t.responses
  ∧ (∀ u ∈ q, ∀ x, s.slot u = some x → ∃ y, t.slot u = some y ∧ y.answer = some ⟨.fault, x.readData⟩)
  ∧ (s.events.length + q.length ≤ 32 →
    (s.events ++ q.filterMap fun u => (s.slot u).map fun x => s.hostFaultRecord u x why) <+: t.events)

/-- The followers of the ARMED links that `c` leads, ascending. -/
def State.followersOf (s : State) (c : Ctx) : List Ctx :=
  allCtx.filter fun f => (s.pacing f).any fun l => l.leader == c && l.state == .armed

/-- The LEADER_LOST record of follower `f` (R106). -/
def State.lostRecordOf (s : State) (c f : Ctx) (why : Reason) : EventRecord where
  kind := .leaderLost
  timestamp := s.timebase
  context := some f
  serial := some (s.context f).serial
  value := some c.val
  reason := some why

/-- From `s` to `t` every link that `c` leads is BROKEN and no other link changes; LEADER_LOST is posted for each ARMED
one in ascending order of follower; and an ACTIVE follower whose head needs elements has that head answered
LEADER_LOST, its record next to the follower's, and its whole Service Queue answered (R106, R107). -/
structure State.LinksLost (s t : State) (c : Ctx) (why : Reason) : Prop where
  broken : ∀ f l, s.pacing f = some l → l.leader = c → t.pacing f = some { l with state := .broken }
  others : ∀ f, (∀ l, s.pacing f = some l → l.leader ≠ c) → t.pacing f = s.pacing f
  records : t.events.length < 32 → ((s.followersOf c).map fun f => s.lostRecordOf c f why).Sublist t.events
  heads : ∀ f h rest x n, f ∈ s.followersOf c → f ≠ c → (s.context f).state = .active →
    (s.context f).snapshot.isSome = true → (s.context f).service = h :: rest → s.Waits (h :: rest) →
    (∀ g, g ≠ f → ∀ u ∈ h :: rest, u ∉ (s.context g).service) → (s.context f).headChecked = true →
    s.slot h = some x → x.count = some n → x.taken < n →
    (∃ y, t.slot h = some y ∧ y.answer = some ⟨.fault, x.readData⟩)
      ∧ (t.context f).service = [] ∧ (∀ u ∈ h :: rest, u ∈ t.responses)
      ∧ (t.context f).state = .active ∧ (t.context f).take = (s.context f).take
      ∧ (t.context f).progress = (s.context f).progress
      ∧ (t.events.length < 32 → [s.lostRecordOf c f why, s.hostFaultRecord h x .leaderLost] <:+: t.events)

/-- From `s` to `t` the context entered FAULTED: no target region, the last walk's fields kept, every transaction of its
Service Queue answered CONTEXT_FAULTED, and the links that it leads broken (R24, R34, R36, R106). -/
structure State.FaultedBy (s t : State) (c : Ctx) (why : FaultReason) : Prop where
  state : (t.context c).state = .faulted ∧ (t.context c).faultReason = some why ∧ (t.context c).region = none
  kept : (t.context c).serial = (s.context c).serial ∧ (t.context c).progress = (s.context c).progress
    ∧ (t.context c).endCause = (s.context c).endCause ∧ (t.context c).descIndex = (s.context c).descIndex
  service : (t.context c).service = []
  answered : s.Waits (s.context c).service → s.AnsweredFault t (s.context c).service .contextFaulted
  links : s.LinksLost t c why.toReason

/-! ### Frames of the Management Link (R153, R155) -/

/-- An addressed frame has received the code of a command with parameters and the parameter bytes `ps`. -/
def Frame.awaits (f : Frame) (k : Command) (ps : List Byte) : Prop :=
  f.phase = .parameters ∧ f.code = some k.code ∧ f.params = ps

/-- The table's row for a command whose last byte is `b`; a command without parameters has no byte. -/
def Command.instr (k : Command) (b : Byte) : Instr :=
  match k with
  | .identify => .identify
  | .writeDesc => .writeDesc b
  | .readDesc => .readDesc b
  | .clearDesc => .clearDesc b
  | .setAperture => .setAperture b
  | .readAperture => .readAperture b
  | .queueWalk => .queueWalk b
  | .endWalk => .endWalk b
  | .abortWalk => .abortWalk b
  | .clearFault => .clearFault b
  | .flushLines => .flushLines b
  | .readContext => .readContext b
  | .setPacing => .setPacing b
  | .clearPacing => .clearPacing b
  | .readPacing => .readPacing b
  | .setTimers => .setTimers b
  | .readTimers => .readTimers
  | .popEvent => .popEvent
  | .peekEvent => .peekEvent
  | .readEventStatus => .readEventStatus
  | .setAttentionMask => .setAttentionMask b
  | .softReset => .softReset

/-- The commands that can end, launch, fault or abort a walk, with what that does to other contexts, the host's
transactions and the requests in memory (spec/95: WALK_END, LAUNCH, CONTEXT_FAULT, ABORT_WALK, SOFT_RESET). -/
def movesWalk : Instr → Bool
  | .elementTake _ | .drainComplete _ | .memoryResponse _ _ _ | .memoryTimeout _ | .queueWalk _ | .endWalk _
  | .abortWalk _ | .clearFault _ | .setTimers _ | .softReset => true
  | _ => false

/-! ### Descriptor fields as numbers (R179, Table 41) -/

/-- The number that encodes the value of a field (Table 41). -/
def Descriptor.fieldCode (d : Descriptor) : Field → Nat
  | .direction => kindCode d.direction
  | .base => d.base.toNat
  | .levels => d.levels
  | .count k => d.count.get k
  | .stride k => unsignedOf 4 (d.stride.get k)
  | .start k => d.start.get k
  | .memWidth => d.memWidth
  | .hostSize => d.hostSize
  | .conversion => d.conversion.code
  | .laneMask => d.laneMask.toNat
  | .endless => d.endless.toNat
  | .chain => (d.chain.map Fin.val).getD 0xFF
  | .mark => d.mark.getD 0xFFFFFFFF
  | .doneEvent => d.doneEvent.toNat
  | .readAhead => d.readAhead

/-- The fields in the order of the READ_DESC reply (Table 42). -/
def Field.inReply : List Field :=
  [.direction, .base, .levels, .count 0, .count 1, .count 2, .count 3, .stride 0, .stride 1, .stride 2, .stride 3,
    .start 0, .start 1, .start 2, .start 3, .memWidth, .hostSize, .conversion, .laneMask, .endless, .chain, .mark,
    .doneEvent, .readAhead]

/-- The values that Table 6 accepts for a field, by their codes. -/
def Field.accepts (v : Nat) : Field → Prop
  | .direction | .endless | .doneEvent => v ≤ 1
  | .base | .start _ | .mark => True
  | .levels | .memWidth => 1 ≤ v ∧ v ≤ 4
  | .count _ => v ≠ 0
  | .stride _ => v ≤ 16777215 ∨ 2 ^ 32 - 16777216 ≤ v
  | .hostSize => v = 1 ∨ v = 2 ∨ v = 4
  | .conversion => v ≤ 3
  | .laneMask => 1 ≤ v ∧ v ≤ 15
  | .chain => v ≤ 63 ∨ v = 0xFF
  | .readAhead => v ≤ 8

/-! ### Laws of the state -/

/-- R140: no two IN_FLIGHT tracker entries whose spans overlap include a write. -/
def State.TrackerLaw (s : State) : Prop :=
  ∀ (t u : MemTag) (a b : TrackEntry), t ≠ u → s.track t = some a → s.track u = some b →
    a.state = .inFlight → b.state = .inFlight → hazard a.kind a.span b.kind b.span = false

/-- R135, R169, R170: the Issue Queue holds at most 16 requests and the Event Queue at most 32 records, and the loss
count, at most 65,535, is not 0 only while the Event Queue is full. -/
def State.QueueLaw (s : State) : Prop :=
  s.iq.length ≤ 16 ∧ s.events.length ≤ 32 ∧ s.loss ≤ 65535 ∧ (s.loss ≠ 0 → s.events.length = 32)

/-- Table 8, R21, R27: what a context holds in each state. -/
def Context.StateLaw (x : Context) : Prop :=
  x.launchQ.length ≤ 4 ∧ (x.state = .idle → x.launchQ = [] ∧ x.service = []) ∧ (x.state = .faulted → x.service = [])
    ∧ (x.region.isSome = true ↔ x.state = .active ∨ x.state = .draining)

/-- Table 8 for every context. -/
def State.ContextLaw (s : State) : Prop := ∀ c, (s.context c).StateLaw

/-- R20, R119: no two enabled apertures overlap, and none overlaps the target region of an ACTIVE or DRAINING
context. -/
def State.ApertureLaw (s : State) : Prop :=
  (∀ i j : ApIx, i ≠ j → (s.aperture i).enabled = true → (s.aperture j).enabled = true →
      (s.aperture i).range.meets (s.aperture j).range = false)
    ∧ ∀ (i : ApIx) (c : Ctx) (q : Region), (s.aperture i).enabled = true →
      ((s.context c).state = .active ∨ (s.context c).state = .draining) → (s.context c).region = some q →
        (s.aperture i).range.meets q = false

/-- The context `n` links ahead of `c`, if the path of links is that long (R96). -/
def State.ahead (s : State) : Nat → Ctx → Option Ctx
  | 0, c => some c
  | n + 1, c => (s.pacing c).bind fun l => s.ahead n l.leader

/-- R95, R96: a present LEAD_LIMIT is greater than GAP, the leader of an ARMED link is not FAULTED, and the links
contain no cycle, so that no context leads itself. Eight contexts have no longer cycle than eight. -/
def State.PacingLaw (s : State) : Prop :=
  (∀ (f : Ctx) (l : PacingLink), s.pacing f = some l →
      l.limitOk = true ∧ (l.state = .armed → (s.context l.leader).state ≠ .faulted))
    ∧ ∀ (f : Ctx) (n : Nat), 0 < n → n ≤ 8 → s.ahead n f ≠ some f

/-- R115 to R117: the response order names each ANSWERED slot exactly once, and nothing else. -/
def State.ResponseLaw (s : State) : Prop :=
  s.responses.Nodup ∧ ∀ t, t ∈ s.responses ↔ ∃ x, s.slot t = some x ∧ x.answer.isSome = true

/-- R54, R76: at most 8 read-ahead entries and at most 4 gather lines, each line at a multiple of 32 with at least
one valid byte, and no two OPEN lines with one address. -/
def Context.BufferLaw (x : Context) : Prop :=
  x.entries.length ≤ 8 ∧ x.lines.length ≤ 4 ∧ (∀ l ∈ x.lines, l.addr % 32 = 0 ∧ l.valid ≠ 0)
    ∧ x.lines.Pairwise fun a b => a.state = .opened → b.state = .opened → a.addr ≠ b.addr

/-- R54, R76 for every context. -/
def State.BufferLaw (s : State) : Prop := ∀ c, (s.context c).BufferLaw

end Sys2Proof.Machine
end

