-- ==== Sys2Proof/Certificates/Slice0/Obligations.lean ====
section
/-! DEFINITION. The statements for the provers. -/

open Sys2Proof Sys2Proof.Machine

/-! ### Steps, resets and time -/

/-- The command at the front of the queue is executed on the state with the queue's rest; on an empty queue the block
idles. The queue is the model's choice (log entry 2). -/
def Obligations.StepTakesFrontCommand : Prop :=
  ∀ (c : Instr) (rest : List Instr) (s : State),
    step { s with pending := c :: rest } = exec c { s with pending := rest }
      ∧ step { s with pending := [] } = .next { s with pending := [] }

/-- R22: hardware reset puts every context in the state of the rule, frees every slot without a response, and empties
the contexts' entries, lines and tracker entries. -/
def Obligations.HardwareResetPutsContextsIdle : Prop :=
  ∀ s : State, ∃ t, exec .hardwareReset s = .next t
    ∧ (∀ c, let x := t.context c
        x.state = .idle ∧ x.snapshot = none ∧ x.descIndex = none ∧ x.region = none ∧ x.serial = 0
          ∧ x.take = .at #v[0, 0, 0, 0] ∧ x.cursor = .at #v[0, 0, 0, 0] ∧ x.progress = 0 ∧ x.passes = 0
          ∧ x.endCause = none ∧ x.faultReason = none ∧ x.launchQ = [] ∧ x.service = [] ∧ x.hold = .none
          ∧ x.holdStart = 0 ∧ x.entries = [] ∧ x.lines = [] ∧ x.issuing = [])
    ∧ (∀ u, t.slot u = none) ∧ t.responses = [] ∧ ∀ u, t.track u = none

/-- What hardware reset leaves of the tables, queues, settings, link and outputs. That MSEL# and the waiting commands
stay as they are is the model's choice (log entries 1 and 14). -/
def Obligations.HardwareResetClearsTables : Prop :=
  ∀ s : State, ∃ t, exec .hardwareReset s = .next t
    ∧ (∀ i, (t.desc i).marks = 0 ∧ (∀ f : Field, (t.desc i).fieldCode f =
        match f with
        | .laneMask => 0xF
        | .chain => 0xFF
        | .mark => 0xFFFFFFFF
        | .readAhead => 2
        | _ => 0))
    ∧ (∀ i, t.aperture i = { base := 0, sizeExp := 0, context := 0, enabled := false })
    ∧ (∀ f, t.pacing f = none) ∧ t.fifo = [] ∧ t.iq = [] ∧ t.pointer = 0 ∧ t.channel = none
    ∧ t.events = [] ∧ t.loss = 0 ∧ t.mask = 0x3FFF ∧ t.attnLow = false
    ∧ t.settings = { clockMhz := 100, memTimeoutUs := 2000, paceLimitUs := 50000, gatherAgeUs := 64 }
    ∧ t.timebase = 0 ∧ t.link.phase = .idle ∧ t.link.mdo = none ∧ t.link.params = [] ∧ t.link.response = []
    ∧ t.rstLow = true ∧ t.mselLow = s.mselLow ∧ t.pending = s.pending

/-- RST_RISE samples the strap and releases the reset; TIMEBASE_TICK adds one microsecond modulo 2^32. While RST# is
low no host request and no memory response is taken and the Timebase does not count. That RST_RISE acts
whatever the level of RST# was before it is the model's choice (log entry 1), and that a tick is one whole microsecond
its reading (log entry 11). -/
def Obligations.StrapTimebaseAndResetGate : Prop :=
  ∀ s : State,
    (∀ v : BitVec 2, ∃ t, exec (.rstRise v) s = .next t ∧ t = { s with rstLow := false, strap := v }
        ∧ t.linkAddress.toNat = 0xA4 + v.toNat)
    ∧ (s.rstLow = false → ∃ t, exec .timebaseTick s = .next t
        ∧ t = { s with timebase := t.timebase, usLength := s.settings.clockMhz }
        ∧ t.timebase.toNat = (s.timebase.toNat + 1) % 2 ^ 32)
    ∧ (s.rstLow = true → exec .timebaseTick s = .next s ∧ (∀ r, exec (.hostRequestArrival r) s = .next s)
        ∧ ∀ m st data, exec (.memoryResponse m st data) s = .next s)

/-! ### The Host Port -/

/-- R116: a tag stays in use until its response is sent. A request on a used tag is discarded with TAG_REUSE; the
sending of the first response frees its slot and tag and changes nothing else. Any other command leaves a used tag in
use with the same request, but for the hardware reset, which frees every slot (R129). -/
def Obligations.TagIsHeldUntilResponseSent : Prop :=
  (∀ (s : State) (r : HostRequest) (x : HostSlot), s.rstLow = false → s.slot r.tag = some x →
    exec (.hostRequestArrival r) s = .next (s.post
      { kind := .tagReuse, timestamp := s.timebase, tag := some r.tag, address := some r.address.toNat }))
  ∧ (∀ (s : State) (t : HostTag) (rest : List HostTag), s.responses = t :: rest →
    exec .hostResponseSent s = .next { s.setSlot t none with responses := rest })
  ∧ ∀ (i : Instr) (s t : State) (u : HostTag) (x : HostSlot), exec i s = .next t → s.slot u = some x →
    i ≠ .hardwareReset → (i = .hostResponseSent → s.responses.head? ≠ some u) →
    ∃ y, t.slot u = some y ∧ y.req = x.req

/-- R115, R128: an answer sets the slot ANSWERED with its status and data and joins the response order; a FAULT posts
HOST_FAULT, which carries the context and the elements taken for a walk access only; an answered slot is not answered
again. -/
def Obligations.AnswerIsGivenOnceAndReported : Prop :=
  ∀ (s : State) (t : HostTag) (x : HostSlot), s.slot t = some x →
    (x.answer = none →
      s.answer t none = { s.setSlot t (some { x with answer := some ⟨.okay, x.readData⟩ }) with
        responses := s.responses ++ [t] }
      ∧ ∀ why : HostReason, ∃ e : EventRecord,
        s.answer t (some why) = State.post { s.setSlot t (some { x with answer := some ⟨.fault, x.readData⟩ }) with
          responses := s.responses ++ [t] } e
        ∧ e.kind = .hostFault ∧ e.timestamp = s.timebase ∧ e.tag = some t ∧ e.address = some x.req.address.toNat
        ∧ e.reason = some why.toReason ∧ e.serial = none ∧ e.descriptor = none
        ∧ (∀ c, x.cls = some (.walk c) → e.context = some c ∧ e.value = some x.taken)
        ∧ ((∀ c, x.cls ≠ some (.walk c)) → e.context = none ∧ e.value = none))
    ∧ (x.answer.isSome = true → ∀ why, s.answer t why = s)

/-- R114: a malformed request is answered FAULT with reason MALFORMED at once, in a slot without a class, and nothing
else happens to it; a single beat that passes lies in one beat, and several beats start on a beat and end within the
address space. -/
def Obligations.MalformedRequestIsAnswered : Prop :=
  ∀ (s : State) (r : HostRequest), r.wf = true →
    let bad : Prop := (1 < r.beats ∧ r.address.toNat % 4 ≠ 0) ∨ (r.beats = 1 ∧ r.address.toNat % r.size ≠ 0)
      ∨ 0xFFFFFFFF < r.range.hi
    (bad → s.rstLow = false → s.slot r.tag = none →
      ∃ t, exec (.hostRequestArrival r) s = .next t
        ∧ State.Resettled ((s.setSlot r.tag (some { r.newSlot with cls := none })).answer r.tag (some .malformed)) t)
    ∧ (¬ bad → (r.beats = 1 → r.address.toNat % 4 + r.size ≤ 4)
        ∧ (1 < r.beats → r.address.toNat % 4 = 0 ∧ r.address.toNat + 4 * r.beats ≤ 2 ^ 32))

/-- R120, R82, R125: a request that meets an enabled aperture without lying inside one is answered SPAN. A request
that meets none enters the tail of the passthrough FIFO with the gather lines that overlap it as its wait set, and
those lines become ISSUING. -/
def Obligations.SpanAndPassthroughArrival : Prop :=
  ∀ (s : State) (r : HostRequest), r.wf = true → r.malformed = false → s.rstLow = false → s.slot r.tag = none →
    ((∃ i, (s.aperture i).enabled = true ∧ r.range.meets (s.aperture i).range = true) →
      (∀ i, (s.aperture i).enabled = true → r.range.inside (s.aperture i).range = false) →
      ∃ t, exec (.hostRequestArrival r) s = .next t
        ∧ State.Resettled ((s.setSlot r.tag (some { r.newSlot with cls := none })).answer r.tag (some .span)) t)
    ∧ ((∀ i, (s.aperture i).enabled = true → r.range.meets (s.aperture i).range = false) →
      ∃ t w, exec (.hostRequestArrival r) s = .next t
        ∧ State.Resettled { s.setSlot r.tag (some { r.newSlot with cls := some .passthrough }) with
            fifo := s.fifo ++ [{ tag := r.tag, waitSet := w }] } t
        ∧ (∀ c k, (c, k) ∈ w ↔ ∃ l ∈ (s.context c).lines, l.slot = k ∧ l.span.overlaps r.span = true)
        ∧ ∀ c, ∀ l ∈ (s.context c).lines, l.span.overlaps r.span = true → l.issue ∈ (t.context c).lines)

/-- R35, R120: a request inside an enabled aperture is a walk access to its context: answered NO_WALK when that is
IDLE and CONTEXT_FAULTED when it is FAULTED, appended to its Service Queue when it is DRAINING (hold NEXT), and
appended behind a checked head when it is ACTIVE. -/
def Obligations.WalkAccessFollowsContextState : Prop :=
  ∀ (s : State) (r : HostRequest) (i : ApIx), r.wf = true → r.malformed = false → s.rstLow = false →
    s.slot r.tag = none → s.ApertureLaw → (s.aperture i).enabled = true →
    r.range.inside (s.aperture i).range = true →
    let c := (s.aperture i).context
    let x := s.context c
    let s₁ := s.setSlot r.tag (some { r.newSlot with cls := some (.walk c) })
    let queued := s₁.setContext c { x with service := x.service ++ [r.tag] }
    ∃ t, exec (.hostRequestArrival r) s = .next t
      ∧ (x.state = .idle → State.Resettled (s₁.answer r.tag (some .noWalk)) t)
      ∧ (x.state = .faulted → State.Resettled (s₁.answer r.tag (some .contextFaulted)) t)
      ∧ (x.state = .draining → queued.Resettled t ∧ (t.context c).hold = .next)
      ∧ (x.state = .active → x.service ≠ [] → x.headChecked = true → s.linkLost c = false → queued.Resettled t)

/-- R37, R122, R123: a request that becomes the head of an ACTIVE walk is answered DIRECTION when its kind differs
from DIRECTION, ALIGN when its slots do not fit Wh or one is partly strobed, and OKAY when it is a write without an
element. R107: otherwise it is answered LEADER_LOST when the context's own link is BROKEN, and waits as the checked head
with its element count when it is not. -/
def Obligations.HeadCheckOnArrival : Prop :=
  ∀ (s : State) (r : HostRequest) (c : Ctx) (d : Descriptor), r.wf = true → r.malformed = false →
    s.rstLow = false → s.slot r.tag = none → s.classify r = .walk c → (s.context c).state = .active →
    (s.context c).service = [] → (s.context c).headChecked = false → (s.context c).snapshot = some d →
    (d.hostSize = 1 ∨ d.hostSize = 2 ∨ d.hostSize = 4) →
    let strobed (i j : Nat) : Prop := r.strobes.getD (r.offset + i * d.hostSize + j) false = true
    let fits : Prop := r.address.toNat % d.hostSize = 0 ∧ r.length % d.hostSize = 0
    let partly (i : Nat) : Prop := (∃ j < d.hostSize, strobed i j) ∧ ∃ j < d.hostSize, ¬ strobed i j
    let n := r.length / d.hostSize
    let slot : HostSlot := { r.newSlot with cls := some (.walk c) }
    let s₁ := s.setSlot r.tag (some slot)
    let head (k : Nat) : State := (s.setSlot r.tag (some { slot with count := some k, taken := 0 })).setContext c
      { s.context c with service := [r.tag], headChecked := true }
    let lost (k : Nat) : State :=
      (s.setSlot r.tag (some { slot with count := some k, taken := 0 })).answer r.tag (some .leaderLost)
    let broken : Prop := ∃ l, s.pacing c = some l ∧ l.state = .broken
    let waits (k : Nat) (t : State) : Prop := (¬ broken → (head k).Resettled t) ∧ (broken → (lost k).Resettled t)
    ∃ t, exec (.hostRequestArrival r) s = .next t
      ∧ (r.kind ≠ d.direction → State.Resettled (s₁.answer r.tag (some .direction)) t)
      ∧ (r.kind = d.direction → (¬ fits ∨ (r.kind = .write ∧ ∃ i < n, partly i)) →
          State.Resettled (s₁.answer r.tag (some .align)) t)
      ∧ (r.kind = d.direction → fits → r.kind = .write → (∀ i < n, ∀ j < d.hostSize, ¬ strobed i j) →
          State.Resettled (s₁.answer r.tag none) t)
      ∧ (r.kind = d.direction → fits → r.kind = .read → waits n t)
      ∧ (r.kind = d.direction → fits → r.kind = .write → (∀ i < n, ¬ partly i) →
          ∀ full : List Nat, full.Nodup → full ≠ [] →
            (∀ i, i ∈ full ↔ i < n ∧ ∀ j < d.hostSize, strobed i j) → waits full.length t)

/-! ### Taking elements -/

/-- R38, R39, R69, R77, R100, R101, R103: the head's element can be taken exactly when its context follows no BROKEN
link, the leader is far enough ahead, no lead limit over the context is reached, and the oldest entry is FILLED or
POISONED or the gather lines have a free slot for every new line. An element that is held is not taken: only the waits
are decided afresh (R58, R59, R61, R79: `Settles`), and the hold reason says which step holds it. R78: where slots lack,
as many of the OPEN lines that the element does not use as the shortfall has grown by become ISSUING, the oldest first;
that the shortfall is kept between attempts is log entry 6, and over a pacing hold between them log entry 27. -/
def Obligations.ElementIsTakenOrHeld : Prop :=
  ∀ (s : State) (c : Ctx) (k : Taking), s.nextElement c = some k →
    (s.mayTake c k = true ↔
      (∀ l, s.pacing c = some l → l.state = .armed ∧
        (s.context c).progress + 1 + l.gap ≤ (s.context l.leader).progress)
      ∧ (∀ f l n, s.pacing f = some l → l.leader = c → l.state = .armed → (s.context f).state = .active →
          l.lead = some n → (s.context c).progress < (s.context f).progress + n)
      ∧ (k.d.direction = .read → ∃ e rest, (s.context c).entries = e :: rest ∧
          ((∃ data, e.state = .filled data) ∨ e.state = .poisoned))
      ∧ (k.d.direction = .write →
          ((k.d.linesNeeded (k.d.address k.pos).toNat).filter fun a => !(s.context c).hasOpen a).length
            ≤ 4 - (s.context c).lines.length))
    ∧ (s.mayTake c k = false → s.linkLost c = false → ∃ t, exec (.elementTake c) s = .next t ∧ s.Settles t
      ∧ (s.paceStep c = .pace → (t.context c).hold = .pace)
      ∧ (s.paceStep c = .lead → (t.context c).hold = .lead)
      ∧ (s.paceStep c = .pass → k.d.direction = .read → (t.context c).hold = .data)
      ∧ (s.paceStep c = .pass → k.d.direction = .write → (t.context c).hold = .line
        ∧ let need := k.d.linesNeeded (k.d.address k.pos).toNat
          let flushed := (s.context c).lines.map fun l => if t.overCandidate l = true then l.issue else l
          let free := 4 - flushed.length
          let short := (need.filter fun a => !flushed.any fun l => l.state == .opened && l.addr == a).length - free
          let unused (ls : List GatherLine) := ls.filter fun l => l.state == .opened && !need.contains l.addr
          let used (ls : List GatherLine) := ls.filter fun l => l.state == .opened && need.contains l.addr
          (t.context c).shortfall = short
            ∧ unused (t.context c).lines = (unused flushed).drop (short - (s.context c).shortfall)
            ∧ used (t.context c).lines = used flushed))

/-- R12, R14, R38: a taken element advances the take position by one, raises progress by 1 and counts a wrap; the walk
goes on, the other contexts keep their walks, and only host answers and event records join what stood before. -/
def Obligations.TakenElementAdvancesWalk : Prop :=
  ∀ (s : State) (c : Ctx) (k : Taking) (p : Vector Nat 4) (w : Bool), s.nextElement c = some k →
    s.mayTake c k = true → k.d.advance k.pos = (.at p, w) → (s.context c).progress + 1 ≠ 2 ^ 48 - 1 →
    ∃ t, exec (.elementTake c) s = .next t
      ∧ t = { s with ctx := t.ctx, slots := t.slots, responses := t.responses, events := t.events, loss := t.loss }
      ∧ (let y := t.context c
        y = { s.context c with
          take := .at p, progress := (s.context c).progress + 1,
          passes := if w then (s.context c).passes + 1 else (s.context c).passes,
          cursor := y.cursor, hold := y.hold, holdStart := y.holdStart, shortfall := y.shortfall,
          entries := y.entries, lines := y.lines, issuing := y.issuing,
          service := y.service, headChecked := y.headChecked })
      ∧ (∀ c', c' ≠ c → (s.context c').SameWalk (t.context c'))
      ∧ s.responses <+: t.responses ∧ s.events <+: t.events

/-- R47, R49, R69: while the head still needs more, a taken read element removes the oldest entry and places its host
bytes in the response: converted bytes for a FILLED entry, zero bytes and the poisoned mark for a POISONED one. R123:
element k of a read stands at slot k, byte j of it at the slot's address + j, and no other byte of the data changes. -/
def Obligations.TakenReadElementIsPlaced : Prop :=
  (∀ (s : State) (c : Ctx) (k : Taking) (p : Vector Nat 4) (w : Bool) (n : Nat) (e : Entry) (rest : List Entry),
    s.nextElement c = some k → s.mayTake c k = true → k.d.direction = .read → k.d.advance k.pos = (.at p, w) →
    (s.context c).progress + 1 ≠ 2 ^ 48 - 1 → k.head.count = some n → k.head.taken + 1 < n →
    (s.context c).entries = e :: rest →
    ∃ t, exec (.elementTake c) s = .next t ∧ rest <+: (t.context c).entries
      ∧ (t.context c).service = (s.context c).service ∧ t.responses = s.responses
      ∧ (∀ u, u ≠ k.tag → t.slot u = s.slot u)
      ∧ (∀ data, e.state = .filled data → t.slot k.tag = some { k.head with
          taken := k.head.taken + 1
          readData := writeBytes k.head.readData k.place (k.d.hostBytes data) })
      ∧ (e.state = .poisoned → t.slot k.tag = some { k.head with
          taken := k.head.taken + 1
          readData := writeBytes k.head.readData k.place (List.replicate k.d.hostSize 0)
          poisoned := true }))
  ∧ (∀ k : Taking, let r := k.head.req
    r.kind = .read → r.address.toNat % k.d.hostSize = 0 → r.length % k.d.hostSize = 0 →
    k.head.taken < r.length / k.d.hostSize → k.place = r.address.toNat % 4 + k.head.taken * k.d.hostSize)
  ∧ ∀ (data bytes : List Byte) (i j : Nat), (writeBytes data i bytes)[j]?
      = if j < data.length ∧ i ≤ j ∧ j < i + bytes.length then bytes[j - i]? else data[j]?

/-- R51, R63, R77: every memory byte of a taken write element is a valid byte of a gather line of its context, and
every read-ahead entry of another context whose span holds that byte's beat is marked stale; so is every entry whose
span meets the write range of a line merged into, and no other entry changes (R68; log entry 15), so that no FILLED or
REQUESTED entry comes to overlap a line. R123: the element's host bytes are those of the next fully strobed slot. The
lines that it needs are the lines of its bytes. -/
def Obligations.TakenWriteElementIsMerged : Prop :=
  (∀ (s : State) (c : Ctx) (k : Taking) (p : Vector Nat 4) (w : Bool), s.nextElement c = some k →
    s.mayTake c k = true → k.d.direction = .write → k.d.advance k.pos = (.at p, w) →
    (s.context c).progress + 1 ≠ 2 ^ 48 - 1 →
    let merged := ((s.context c).mergeBytes s.timebase k.bytes).mergedLines k.bytes
    let fresh (u : State) : Prop := ∀ c', ∀ e ∈ (u.context c').entries,
      (e.state = .requested ∨ ∃ data, e.state = .filled data) →
        ∀ c'', ∀ l ∈ (u.context c'').lines, l.span.overlaps e.span = false
    ∃ t, exec (.elementTake c) s = .next t
      ∧ (∀ m ∈ k.bytes,
        (∃ l ∈ (t.context c).lines, l.addr = m.1 - m.1 % 32 ∧ l.valid.getLsbD (m.1 % 32) = true
          ∧ l.data[m.1 % 32]? = some m.2)
        ∧ ∀ c', c' ≠ c → ∀ e ∈ (s.context c').entries,
          e.span.overlaps { start := m.1 - m.1 % 4, beats := 1 } = true →
            { e with state := e.state.stale } ∈ (t.context c').entries)
      ∧ (∀ c', c' ≠ c → ((s.context c').entries.map fun e =>
          if merged.any (fun l => l.span.overlaps e.span) = true then { e with state := e.state.stale } else e)
            <+: (t.context c').entries)
      ∧ (fresh s → fresh t))
  ∧ ∀ k : Taking, k.d.memWidth ≤ 4 →
    (∀ a, a ∈ k.d.linesNeeded (k.d.address k.pos).toNat ↔ ∃ m ∈ k.bytes, a = m.1 - m.1 % 32)
    ∧ let r := k.head.req
      let wh := k.d.hostSize
      let strobed (i j : Nat) : Bool := r.strobes.getD (r.address.toNat % 4 + i * wh + j) false
      let full (i : Nat) : Bool := (List.range wh).all (strobed i)
      r.kind = .write → r.address.toNat % wh = 0 → r.length % wh = 0 →
      (∀ i < r.length / wh, full i = true ∨ ∀ j < wh, strobed i j = false) →
      ∀ (i : Nat) (host : List Byte), i < r.length / wh → full i = true →
        (List.range i).countP full = k.head.taken → host.length = wh →
        (∀ j < wh, r.data[r.address.toNat % 4 + i * wh + j]? = host[j]?) →
        k.bytes = k.d.memoryBytes (k.d.address k.pos).toNat host

/-- R40, R115: a head that takes its last element is answered, OKAY or, if an element came from a POISONED entry, FAULT,
and leaves the Service Queue; a read's answer carries the data collected, its last element among them. -/
def Obligations.CompletedHeadIsAnswered : Prop :=
  ∀ (s : State) (c : Ctx) (k : Taking) (p : Vector Nat 4) (w : Bool), s.nextElement c = some k →
    s.mayTake c k = true → k.d.advance k.pos = (.at p, w) → (s.context c).progress + 1 ≠ 2 ^ 48 - 1 →
    k.head.count = some (k.head.taken + 1) → k.head.answer = none →
    ∃ t x, exec (.elementTake c) s = .next t ∧ (s.responses ++ [k.tag]) <+: t.responses ∧ t.slot k.tag = some x
      ∧ (t.context c).service <:+ (s.context c).service.tail
      ∧ x.answer.map HostAnswer.status = some
        (if k.head.poisoned = true ∨
            (k.d.direction = .read ∧ (s.context c).entries.head?.map Entry.state = some .poisoned)
          then .fault else .okay)
      ∧ x.answer.map HostAnswer.data = some
        (match k.d.direction, (s.context c).entries.head?.map Entry.state with
          | .write, _ => k.head.readData
          | .read, some (.filled data) => writeBytes k.head.readData k.place (k.d.hostBytes data)
          | .read, _ => writeBytes k.head.readData k.place (List.replicate k.d.hostSize 0))

/-- R15: taking the element at the MARK ordinal posts MARK with the context, the walk serial and the progress after
the element; taking another element posts no MARK. -/
def Obligations.MarkIsPostedAtItsOrdinal : Prop :=
  ∀ (s : State) (c : Ctx) (k : Taking), s.nextElement c = some k → s.mayTake c k = true →
    ∃ t, exec (.elementTake c) s = .next t
      ∧ (k.d.mark = some (k.d.ordinal k.pos) → s.events.length < 32 →
        (s.events ++ [{
          kind := .mark, timestamp := s.timebase, context := some c,
          serial := some (s.context c).serial, value := some ((s.context c).progress + 1) }]) <+: t.events)
      ∧ (k.d.mark ≠ some (k.d.ordinal k.pos) → ∀ e ∈ t.events, e.kind = .mark → e ∈ s.events)

/-- R13, R25, R28, R41: the element that exhausts a walk ends it EXHAUSTED, and the one that brings progress to 2^48 − 1
ends it LIMIT: a write walk is then DRAINING with every line ISSUING, and a head that still needs elements is answered
FAULT, with OVERRUN or ENDED. R29, R30, R71: a read walk drains in that event, its entries are discarded and its reads
detached; with no walk to follow its context is IDLE. -/
def Obligations.ExhaustedWriteWalkDrains : Prop :=
  ∀ (s : State) (c : Ctx) (k : Taking) (cause : EndCause), s.nextElement c = some k → s.mayTake c k = true →
    ((cause = .exhausted ∧ (k.d.advance k.pos).1 = .exhausted)
      ∨ (cause = .limit ∧ (k.d.advance k.pos).1 ≠ .exhausted ∧ (s.context c).progress + 1 = 2 ^ 48 - 1)) →
    let x := s.context c
    let needs : Prop := k.head.taken + 1 < k.head.count.getD 0
    let poisoned : Prop :=
      k.head.poisoned = true ∨ (k.d.direction = .read ∧ x.entries.head?.map Entry.state = some .poisoned)
    ∃ t, exec (.elementTake c) s = .next t
      ∧ (k.head.answer = none → ∃ y, t.slot k.tag = some y
          ∧ y.answer.map HostAnswer.status = some (if needs ∨ poisoned then .fault else .okay)
          ∧ (needs → t.events.length < 32 → ∃ e ∈ t.events, e.kind = .hostFault ∧ e.tag = some k.tag
              ∧ e.reason = some (if cause = .exhausted then .overrun else .ended)))
      ∧ (k.d.direction = .write → k.bytes ≠ [] →
        (t.context c).state = .draining ∧ (t.context c).endCause = some cause
        ∧ (t.context c).take = (k.d.advance k.pos).1 ∧ (t.context c).progress = x.progress + 1
        ∧ (t.context c).region = x.region ∧ (t.context c).serial = x.serial
        ∧ (t.context c).launchQ = x.launchQ ∧ (t.context c).lines ≠ []
        ∧ (∀ l ∈ (t.context c).lines, l.state = .issuing)
        ∧ (t.context c).hold = if (t.context c).service = [] then .none else .next)
      ∧ (k.d.direction = .read → x.lines = [] → s.attachedWrites c = 0 → x.launchQ = [] →
        (cause = .limit ∨ k.d.chain = none) →
        (t.context c).state = .idle ∧ (t.context c).endCause = some cause
        ∧ (t.context c).take = (k.d.advance k.pos).1 ∧ (t.context c).progress = x.progress + 1
        ∧ (t.context c).region = none ∧ (t.context c).serial = x.serial ∧ (t.context c).entries = []
        ∧ (t.context c).service = [] ∧ (t.context c).hold = .none
        ∧ ∀ m, t.track m = (s.track m).map fun e =>
            if e.origin.isReadOf c = true then { e with detached := true } else e)

/-! ### Conversion and the walker -/

/-- R46, R48, R50: the width conversion keeps the value when it widens (as unsigned for ZERO and SAT_UNSIGNED, as
signed for SIGN and SAT_SIGNED), keeps the low bytes or clamps when it narrows, and always fits the target. R47, R51,
R176: a write element gives byte j of its converted value at address + j for each lane of the mask and no other byte; a
read element gives the HOST_SIZE bytes of its converted value, in which the bytes of the lanes of the mask count at
their places and a masked-out lane counts as 0; n bytes hold exactly the numbers below 256^n. -/
def Obligations.ElementConversionAndLanes : Prop :=
  (∀ src dst v : Nat, 1 ≤ src → src ≤ 4 → 1 ≤ dst → dst ≤ 4 → v < 256 ^ src →
    (∀ m, convertWidth m src dst v < 256 ^ dst)
    ∧ (src ≤ dst → convertWidth .zero src dst v = v ∧ convertWidth .satUnsigned src dst v = v
        ∧ signedOf dst (convertWidth .sign src dst v) = signedOf src v
        ∧ signedOf dst (convertWidth .satSigned src dst v) = signedOf src v)
    ∧ (dst < src → convertWidth .zero src dst v = v % 256 ^ dst ∧ convertWidth .sign src dst v = v % 256 ^ dst
        ∧ convertWidth .satUnsigned src dst v = min v (256 ^ dst - 1)
        ∧ signedOf dst (convertWidth .satSigned src dst v)
          = max (-(2 ^ (8 * dst - 1) : Int)) (min (signedOf src v) (2 ^ (8 * dst - 1) - 1))))
  ∧ (∀ (d : Descriptor) (addr : Nat) (host : List Byte) (m : Nat × Byte), d.memWidth ≤ 4 →
    (m ∈ d.memoryBytes addr host ↔ ∃ j < d.memWidth, d.laneMask.getLsbD j = true ∧ m.1 = addr + j ∧
      m.2.toNat = convertWidth d.conversion d.hostSize d.memWidth (decodeLE host) / 256 ^ j % 256))
  ∧ (∀ (d : Descriptor) (data data' : Vector Byte 4),
      (∀ j : Fin 4, d.laneMask.getLsbD j.val = true → data.get j = data'.get j) →
      d.hostBytes data = d.hostBytes data')
  ∧ (∀ (d : Descriptor) (data : Vector Byte 4), 1 ≤ d.memWidth → d.memWidth ≤ 4 → 1 ≤ d.hostSize → d.hostSize ≤ 4 →
      (d.hostBytes data).length = d.hostSize
      ∧ decodeLE (d.hostBytes data) = convertWidth d.conversion d.memWidth d.hostSize
        (([0, 1, 2, 3] : List (Fin 4)).map fun j =>
          if j.val < d.memWidth ∧ d.laneMask.getLsbD j.val = true then 256 ^ j.val * (data.get j).toNat else 0).sum)
  ∧ ∀ n v : Nat, decodeLE (encodeLE n v) = v % 256 ^ n ∧ (encodeLE n v).length = n

/-- R10, R12 to R14: one advance raises the ordinal by exactly 1 within a pass; only the last position of a pass wraps
to all counters 0 or exhausts the walk. -/
def Obligations.AdvanceRaisesOrdinalByOne : Prop :=
  ∀ (d : Descriptor) (c : Vector Nat 4), d.levels ≤ 4 →
    (∀ k : Fin 4, k.val < d.levels → c.get k < d.count.get k) →
    d.ordinal c < d.positions ∧
    match d.advance c with
    | (.at c', false) => d.ordinal c' = d.ordinal c + 1 ∧ ∀ k : Fin 4, k.val < d.levels → c'.get k < d.count.get k
    | (.at c', true) => d.endless = true ∧ d.ordinal c + 1 = d.positions ∧ d.ordinal c' = 0
    | (.exhausted, w) => d.endless = false ∧ w = false ∧ d.ordinal c + 1 = d.positions

/-- R9, R16, R19, R20: when the launch checks pass, every byte of every element lies in the target region, within the
32-bit address space and in no enabled aperture. -/
def Obligations.LaunchedElementsStayInRegion : Prop :=
  ∀ (s : State) (d : Descriptor) (c : Vector Nat 4) (j : Nat), s.launchCheck d = none →
    (∀ k : Fin 4, k.val < d.levels → c.get k < d.count.get k) → j < d.memWidth →
    let a := d.address c + (j : Int)
    d.region.lo ≤ a ∧ a ≤ d.region.hi ∧ 0 ≤ a ∧ a ≤ 0xFFFFFFFF
      ∧ ∀ i, (s.aperture i).enabled = true → ¬ ((s.aperture i).range.lo ≤ a ∧ a ≤ (s.aperture i).range.hi)

/-! ### Launches, ends and faults -/

/-- R23, R26, R109: QUEUE_WALK into an IDLE context whose launch checks pass starts the walk: snapshot, target region,
walk serial, start position, progress and pass count 0, causes absent, state ACTIVE; the context's own BROKEN link is
re-armed when its leader is not FAULTED. The waits are then decided afresh: a read walk's queue is filled to
min(8, elements left, READ_AHEAD) from the start position (R57 to R59), and the OPEN lines over a candidate become
ISSUING (R61). -/
def Obligations.QueueWalkLaunchesIdleContext : Prop :=
  ∀ (s : State) (c : Ctx) (i : DescIx), s.link.awaits .queueWalk [BitVec.ofNat 8 c.val] →
    (s.context c).state = .idle → (s.context c).service = [] → s.launchCheck (s.desc i) = none →
    let d := s.desc i
    let start : WalkPos := .at (Vector.ofFn fun k : Fin 4 => if k.val < d.levels then d.start.get k else 0)
    let link := (s.pacing c).map fun l =>
      if l.state = .broken ∧ (s.context l.leader).state ≠ .faulted then { l with state := .armed } else l
    ∃ u, exec (.queueWalk (BitVec.ofNat 8 i.val)) s
        = .next { u with link := s.link.answered (BitVec.ofNat 8 i.val) .ok [] }
      ∧ State.Settles ((s.setPacing c link).setContext c { s.context c with
          state := .active, snapshot := some d, descIndex := some i, region := some d.region,
          serial := (s.context c).serial + 1, take := start,
          cursor := if d.direction = .read then start else (s.context c).cursor, progress := 0, passes := 0,
          endCause := none, faultReason := none, headChecked := false, shortfall := 0 }) u

/-- R24, R26: QUEUE_WALK is refused with BAD_INDEX for a context of 8 or more or a descriptor index of 64 or more. Into
a context that is not IDLE it appends the index to a Launch Queue of fewer than 4 entries, and is refused with
QUEUE_FULL at 4. Into an IDLE context whose launch checks fail it is answered OK: the context is FAULTED with
LAUNCH_REFUSED and no target region, the last walk's fields stay, and LAUNCH_REFUSED is posted; that is all where the
context leads no ARMED link and its Service Queue is empty. R36, R106, R107: otherwise every transaction waiting is
answered CONTEXT_FAULTED and the links that the context leads break. -/
def Obligations.QueueWalkWaitsOrIsRefused : Prop :=
  (∀ (s : State) (x b : Byte), s.link.awaits .queueWalk [x] → (8 ≤ x.toNat ∨ 64 ≤ b.toNat) →
    exec (.queueWalk b) s = .next { s with link := s.link.answered b .badIndex [] })
  ∧ (∀ (s : State) (c : Ctx) (i : DescIx), s.link.awaits .queueWalk [BitVec.ofNat 8 c.val] →
    (s.context c).state ≠ .idle →
    ((s.context c).launchQ.length < 4 → exec (.queueWalk (BitVec.ofNat 8 i.val)) s
      = .next { s.setContext c { s.context c with launchQ := (s.context c).launchQ ++ [i] } with
          link := s.link.answered (BitVec.ofNat 8 i.val) .ok [] })
    ∧ ((s.context c).launchQ.length = 4 → exec (.queueWalk (BitVec.ofNat 8 i.val)) s
      = .next { s with link := s.link.answered (BitVec.ofNat 8 i.val) .queueFull [] }))
  ∧ ∀ (s : State) (c : Ctx) (i : DescIx) (why : RefusalReason), s.link.awaits .queueWalk [BitVec.ofNat 8 c.val] →
    (s.context c).state = .idle → s.launchCheck (s.desc i) = some why →
    let refused := s.post {
      kind := .launchRefused, timestamp := s.timebase, context := some c,
      descriptor := some i, reason := some why.toReason }
    ∃ u, exec (.queueWalk (BitVec.ofNat 8 i.val)) s
        = .next { u with link := s.link.answered (BitVec.ofNat 8 i.val) .ok [] }
      ∧ refused.FaultedBy u c .launchRefused
      ∧ ((s.context c).service = [] → (∀ f l, s.pacing f = some l → l.leader = c → l.state = .broken) →
        State.Resettled (refused.setContext c { s.context c with
            state := .faulted, faultReason := some .launchRefused, region := none, headChecked := false }) u)

/-- R30: a completed drain posts WALK_DONE first if DONE_EVENT is 1; then CHAIN is launched after an EXHAUSTED walk,
otherwise the Launch Queue's head, otherwise the context is IDLE without a target region and its Service Queue is
answered NO_WALK (R36). A refused launch faults the context; under a link that stays BROKEN every waiting transaction is
answered by its head check or LEADER_LOST (R107, R109). DRAIN_COMPLETE meets a drained context only between two events (log entry 7): by R89 an OKAY answer to the
last attached line write completes the drain in its own event, and otherwise it changes nothing but the tag. -/
def Obligations.CompletedDrainLaunchesNextWalk : Prop :=
  (∀ (s : State) (m : MemTag) (e : TrackEntry) (c : Ctx) (n : BitVec 16) (l : Nat) (data : List Byte),
    s.rstLow = false → s.track m = some e → e.state = .inFlight → e.origin = .gather c n l →
    let s₁ := s.setTrack m none
    (e.detached = false → s₁.drained c = true →
      exec (.memoryResponse m .okay data) s = exec (.drainComplete c) s₁)
    ∧ ((e.detached = true ∨ s₁.drained c = false) →
      ∃ t, exec (.memoryResponse m .okay data) s = .next t ∧ s₁.Resettled t))
  ∧ ∀ (s : State) (c : Ctx) (d : Descriptor), s.drained c = true → (s.context c).snapshot = some d →
    let x := s.context c
    let done : EventRecord := {
      kind := .walkDone, timestamp := s.timebase, context := some c, serial := some x.serial,
      descriptor := x.descIndex, reason := x.endCause.map EndCause.toReason, value := some x.progress }
    let s₀ := if d.doneEvent = true then s.post done else s
    let launchedFrom (t : State) (i : DescIx) (q : List DescIx) : Prop :=
      (t.context c).launchQ = q
      ∧ (s.launchCheck (s.desc i) = none → (t.context c).state = .active ∧ (t.context c).descIndex = some i
          ∧ (t.context c).snapshot = some (s.desc i) ∧ (t.context c).serial = x.serial + 1
          ∧ (t.context c).progress = 0 ∧ (t.context c).region = some (s.desc i).region)
      ∧ (s.launchCheck (s.desc i) ≠ none → (t.context c).state = .faulted
          ∧ (t.context c).faultReason = some .launchRefused ∧ (t.context c).serial = x.serial
          ∧ (t.context c).service = [] ∧ (t.context c).region = none)
      ∧ (∀ why, s.launchCheck (s.desc i) = some why → State.FaultedBy (s₀.post {
          kind := .launchRefused, timestamp := s.timebase, context := some c,
          descriptor := some i, reason := some why.toReason }) t c .launchRefused)
      ∧ (∀ l, s.launchCheck (s.desc i) = none → s.pacing c = some l → l.state = .broken →
          (s.context l.leader).state = .faulted → s.Waits x.service →
          t.pacing c = some l ∧ (t.context c).service = [] ∧ (s.responses ++ x.service) <+: t.responses
            ∧ ∀ u z n, u ∈ x.service → s.slot u = some z → (s.desc i).headCheck z.req = .ok (n + 1) →
              ∃ y, t.slot u = some y ∧ y.answer.map HostAnswer.status = some .fault)
    ∃ t, exec (.drainComplete c) s = .next t
      ∧ (d.doneEvent = true → s.events.length < 32 →
        (s.events ++ [done]) <+: t.events)
      ∧ (d.doneEvent = false → ∀ e ∈ t.events, e.kind = .walkDone → e ∈ s.events)
      ∧ (∀ i, x.endCause = some .exhausted → d.chain = some i → launchedFrom t i x.launchQ)
      ∧ ((x.endCause ≠ some .exhausted ∨ d.chain = none) →
        (∀ i q, x.launchQ = i :: q → launchedFrom t i q)
        ∧ (x.launchQ = [] → (t.context c).state = .idle ∧ (t.context c).region = none
            ∧ (t.context c).service = [] ∧ (t.context c).serial = x.serial ∧ (t.context c).progress = x.progress
            ∧ (s.Waits x.service → s₀.AnsweredFault t x.service .noWalk)))

/-- R28, R29, R31: END_WALK is refused with BAD_INDEX for a context of 8 or more, and with STATE unless the context is
ACTIVE. A write walk with lines or attached
writes is then DRAINING with cause ENDED and every line ISSUING; a partly served head is answered FAULT, and a head
that has taken nothing stays. A read walk with no walk queued is drained at once, and CHAIN is not followed. -/
def Obligations.EndWalkStopsActiveWalk : Prop :=
  (∀ (s : State) (b : Byte), s.link.awaits .endWalk [] → 8 ≤ b.toNat →
    exec (.endWalk b) s = .next { s with link := s.link.answered b .badIndex [] })
  ∧ ∀ (s : State) (c : Ctx), s.link.awaits .endWalk [] →
    let b : Byte := BitVec.ofNat 8 c.val
    let x := s.context c
    (x.state ≠ .active → exec (.endWalk b) s = .next { s with link := s.link.answered b .state [] })
    ∧ (∀ d, x.state = .active → x.snapshot = some d → d.direction = .write →
        (x.lines ≠ [] ∨ s.attachedWrites c ≠ 0) →
        ∃ t, exec (.endWalk b) s = .next t ∧ t.link = s.link.answered b .ok []
          ∧ (t.context c).state = .draining ∧ (t.context c).endCause = some .ended
          ∧ (t.context c).take = x.take ∧ (t.context c).progress = x.progress ∧ (t.context c).serial = x.serial
          ∧ (t.context c).region = x.region ∧ (t.context c).launchQ = x.launchQ
          ∧ (t.context c).lines = x.lines.map GatherLine.issue
          ∧ (x.service = [] → t.slots = s.slots ∧ t.responses = s.responses ∧ t.events = s.events)
          ∧ (∀ u rest y, x.service = u :: rest → s.slot u = some y → y.taken = 0 →
              (t.context c).service = x.service ∧ (t.context c).hold = .next ∧ t.slots = s.slots
                ∧ t.responses = s.responses ∧ t.events = s.events)
          ∧ (∀ u rest y n, x.service = u :: rest → s.slot u = some y → y.answer = none → x.headChecked = true →
              y.count = some n → 0 < y.taken → y.taken < n →
              (t.context c).service = rest ∧ t.responses = s.responses ++ [u]
                ∧ t.slot u = some { y with answer := some ⟨.fault, y.readData⟩ }))
    ∧ (∀ d, x.state = .active → x.snapshot = some d → d.direction = .read → x.launchQ = [] → x.lines = [] →
        s.attachedWrites c = 0 →
        ∃ t, exec (.endWalk b) s = .next t ∧ t.link = s.link.answered b .ok []
          ∧ (t.context c).state = .idle ∧ (t.context c).endCause = some .ended ∧ (t.context c).entries = []
          ∧ (t.context c).region = none ∧ (t.context c).service = [] ∧ (t.context c).serial = x.serial
          ∧ (t.context c).progress = x.progress)

/-- R32, R71, R93, R106, R139: ABORT_WALK is refused with BAD_INDEX for a context of 8 or more, and then with BAD_VALUE
for a purge flag above 1. With purge, or with an empty Launch Queue, it leaves the context IDLE with empty queues, no
lines, no entries and no target region; what reports the walk is kept; its Service Queue is answered ABORTED in arrival
order; its requests are detached where they stand; the ARMED links that it leads break, each with its LEADER_LOST record
and the answer to its follower's head (R107); the reply counts the lines discarded. Without purge the Launch Queue is
kept, and a launch from its head follows in the same event: the context runs the queued walk (R23, R109), or is FAULTED
with LAUNCH_REFUSED (R24). -/
def Obligations.AbortWalkClearsContext : Prop :=
  (∀ (s : State) (x b : Byte), s.link.awaits .abortWalk [x] → 8 ≤ x.toNat →
    exec (.abortWalk b) s = .next { s with link := s.link.answered b .badIndex [] })
  ∧ ∀ (s : State) (c : Ctx), s.link.awaits .abortWalk [BitVec.ofNat 8 c.val] →
    let x := s.context c
    let reply : List Byte := [BitVec.ofNat 8 x.lines.length]
    let aborted (t : State) (queue : List DescIx) : Prop :=
      t.context c = { x with
          state := .idle, region := none, launchQ := queue, service := [], headChecked := false, hold := .none,
          shortfall := 0, entries := [], lines := [], issuing := [] }
      ∧ (∀ c', c' ≠ c → (t.context c').state = (s.context c').state
          ∧ (t.context c').progress = (s.context c').progress ∧ (t.context c').take = (s.context c').take)
      ∧ t.iq = s.iq.map (fun e => if e.origin.isReadOf c || e.origin.isWriteOf c then { e with detached := true } else e)
      ∧ (∀ m, t.track m = (s.track m).map fun e =>
          if e.origin.isReadOf c || e.origin.isWriteOf c then { e with detached := true } else e)
      ∧ (s.Waits x.service → s.AnsweredFault t x.service .aborted)
      ∧ s.LinksLost t c .aborted ∧ (∀ f l, t.pacing f = some l → l.leader = c → l.state = .broken)
      ∧ (∀ f l, s.pacing f = some l → l.leader ≠ c → t.pacing f = some l)
      ∧ (∀ e ∈ t.fifo, ∀ w ∈ e.waitSet, w.1 ≠ c) ∧ s.responses <+: t.responses ∧ s.events <+: t.events
      ∧ t.apertures = s.apertures ∧ t.descs = s.descs ∧ t.settings = s.settings ∧ t.channel = s.channel
      ∧ t.pointer = s.pointer
    (∀ b : Byte, 1 < b.toNat → exec (.abortWalk b) s = .next { s with link := s.link.answered b .badValue [] })
    ∧ (∀ b : Byte, (b = 1 ∨ (b = 0 ∧ x.launchQ = [])) →
      ∃ t, exec (.abortWalk b) s = .next t ∧ t.link = s.link.answered b .ok reply ∧ aborted t [])
    ∧ ∀ i q, x.launchQ = i :: q →
      let d := s.desc i
      ∃ u v, aborted u q ∧ exec (.abortWalk 0) s = .next { v with link := s.link.answered 0 .ok reply }
        ∧ (s.launchCheck d = none →
          let start : WalkPos := .at (Vector.ofFn fun k : Fin 4 => if k.val < d.levels then d.start.get k else 0)
          let link := (u.pacing c).map fun l =>
            if l.state = .broken ∧ (u.context l.leader).state ≠ .faulted then { l with state := .armed } else l
          State.Settles ((u.setPacing c link).setContext c { u.context c with
            state := .active, snapshot := some d, descIndex := some i, region := some d.region,
            serial := x.serial + 1, take := start, cursor := if d.direction = .read then start else x.cursor,
            progress := 0, passes := 0, endCause := none, faultReason := none }) v)
        ∧ ∀ why, s.launchCheck d = some why → State.Resettled ((u.post {
            kind := .launchRefused, timestamp := s.timebase, context := some c,
            descriptor := some i, reason := some why.toReason }).setContext c { u.context c with
              state := .faulted, faultReason := some .launchRefused }) v

/-- R33: CLEAR_FAULT is refused with BAD_INDEX for a context of 8 or more, and with STATE unless the context is FAULTED. With an empty Launch Queue it enters IDLE and
keeps its fault reason; otherwise the head entry is removed and launched. -/
def Obligations.ClearFaultLeavesFaulted : Prop :=
  (∀ (s : State) (b : Byte), s.link.awaits .clearFault [] → 8 ≤ b.toNat →
    exec (.clearFault b) s = .next { s with link := s.link.answered b .badIndex [] })
  ∧ ∀ (s : State) (c : Ctx), s.link.awaits .clearFault [] →
    let b : Byte := BitVec.ofNat 8 c.val
    let x := s.context c
    (x.state ≠ .faulted → exec (.clearFault b) s = .next { s with link := s.link.answered b .state [] })
    ∧ (x.state = .faulted → x.launchQ = [] →
        ∃ u, State.Resettled (s.setContext c { x with state := .idle }) u
          ∧ exec (.clearFault b) s = .next { u with link := s.link.answered b .ok [] })
    ∧ (∀ i q, x.state = .faulted → x.launchQ = i :: q →
        ∃ t, exec (.clearFault b) s = .next t ∧ t.link = s.link.answered b .ok [] ∧ (t.context c).launchQ = q
          ∧ (s.launchCheck (s.desc i) = none → (t.context c).state = .active ∧ (t.context c).descIndex = some i
              ∧ (t.context c).serial = x.serial + 1 ∧ (t.context c).faultReason = none)
          ∧ (s.launchCheck (s.desc i) ≠ none → (t.context c).state = .faulted
              ∧ (t.context c).faultReason = some .launchRefused ∧ (t.context c).serial = x.serial))

/-- R90, R91: a FAULT answer to an attached line write posts WRITE_FAULT with the number of unadmitted lines, discards
those lines, detaches the context's other writes and faults the context with WRITE_FAULT; for a detached write
WRITE_FAULT with value 0 is all. R34, R36, R106, R107: entering FAULTED answers the Service Queue CONTEXT_FAULTED and
breaks the links that the context leads; where both are empty no other record is posted. -/
def Obligations.LineWriteFaultFaultsContext : Prop :=
  ∀ (s : State) (m : MemTag) (e : TrackEntry) (c : Ctx) (n : BitVec 16) (l : Nat) (data : List Byte),
    s.rstLow = false → s.track m = some e → e.state = .inFlight → e.origin = .gather c n l →
    let report (v : Nat) : EventRecord := {
      kind := .writeFault, timestamp := s.timebase, context := some c,
      serial := some n, address := some l, reason := some .memory, value := some v }
    (e.detached = true → ∃ t, exec (.memoryResponse m .fault data) s = .next t
      ∧ State.Resettled ((s.setTrack m none).post (report 0)) t)
    ∧ (e.detached = false →
      let s₁ := (s.setTrack m none).post (report (s.context c).lines.length)
      ∃ t, exec (.memoryResponse m .fault data) s = .next t ∧ s₁.FaultedBy t c .writeFault
        ∧ ((s.context c).service = [] → (∀ f k, s.pacing f = some k → k.leader = c → k.state = .broken) →
          t.events = s₁.events ∧ t.slots = s.slots)
        ∧ (t.context c).state = .faulted ∧ (t.context c).faultReason = some .writeFault
        ∧ (t.context c).lines = [] ∧ (t.context c).issuing = [] ∧ (t.context c).region = none
        ∧ (t.context c).endCause = (s.context c).endCause ∧ (t.context c).launchQ = (s.context c).launchQ
        ∧ t.attachedWrites c = 0 ∧ (∀ g ∈ t.fifo, ∀ w ∈ g.waitSet, w.1 ≠ c))

/-! ### Read-ahead, gathering and the memory side -/

/-- R80, R81: FLUSH_LINES is refused with BAD_INDEX for a context of 8 or more; otherwise it makes every OPEN line of the context ISSUING in any state and replies with their number. An
OPEN line whose age has reached GATHER_AGE_US becomes ISSUING; when no line of that address has, nothing changes. -/
def Obligations.FlushedAndAgedLinesIssue : Prop :=
  (∀ (s : State) (b : Byte), s.link.awaits .flushLines [] → 8 ≤ b.toNat →
    exec (.flushLines b) s = .next { s with link := s.link.answered b .badIndex [] })
  ∧ (∀ (s : State) (c : Ctx), s.link.awaits .flushLines [] →
    let b : Byte := BitVec.ofNat 8 c.val
    let n : Byte := BitVec.ofNat 8 ((s.context c).lines.countP fun l => l.state == .opened)
    ∃ u : State, exec (.flushLines b) s = .next { u with link := s.link.answered b .ok [n] }
      ∧ (u.context c).lines = (s.context c).lines.map GatherLine.issue
      ∧ u = { s with ctx := u.ctx } ∧ ∀ c', (s.context c').Resettled (u.context c'))
  ∧ ∀ (s : State) (c : Ctx) (a : BitVec 32),
    let aged (l : GatherLine) : Prop := l.addr = a.toNat ∧ l.state = .opened ∧ s.settings.gatherAgeUs ≠ 0
      ∧ s.settings.gatherAgeUs ≤ (s.timebase.toNat + 2 ^ 32 - l.openedAt.toNat) % 2 ^ 32
    ((∃ l ∈ (s.context c).lines, aged l) → ∃ t, exec (.gatherAgeExpiry c a) s = .next t ∧ s.Resettled t
      ∧ ∀ l ∈ (s.context c).lines, aged l → l.issue ∈ (t.context c).lines)
    ∧ ((∀ l ∈ (s.context c).lines, ¬ aged l) → exec (.gatherAgeExpiry c a) s = .next s)

/-- R105, R42: a head held PACE or LEAD for longer than PACE_LIMIT_US is answered FAULT and leaves the Service Queue;
the walk does not move. -/
def Obligations.PaceTimeoutFinishesHead : Prop :=
  ∀ (s : State) (c : Ctx) (h : HostTag) (rest : List HostTag) (x : HostSlot),
    (s.context c).state = .active → ((s.context c).hold = .pace ∨ (s.context c).hold = .lead) →
    (s.context c).service = h :: rest → s.slot h = some x → x.answer = none →
    let held := (s.timebase.toNat + 2 ^ 32 - (s.context c).holdStart.toNat) % 2 ^ 32
    (s.settings.paceLimitUs ≠ 0 → s.settings.paceLimitUs < held →
      ∃ t y, exec (.paceTimeout c) s = .next t ∧ (s.responses ++ [h]) <+: t.responses
        ∧ t.slot h = some y ∧ y.answer = some ⟨.fault, x.readData⟩ ∧ (t.context c).service <:+ rest
        ∧ (t.context c).state = .active ∧ (t.context c).take = (s.context c).take
        ∧ (t.context c).progress = (s.context c).progress ∧ t.links = s.links
        ∧ (s.events.length < 32 → (s.events ++ [s.hostFaultRecord h x .paceTimeout]) <+: t.events))
    ∧ ((s.settings.paceLimitUs = 0 ∨ held ≤ s.settings.paceLimitUs) → exec (.paceTimeout c) s = .next s)

/-- R136: while the Issue Queue has room the arbiter admits the first source with an eligible candidate from the
pointer's position onward around the cycle of 17. Position 0 has one when the oldest passthrough request waits for no
line (R83, R125); position 1 + 2c when the oldest PENDING entry of context c overlaps no gather line (R60, R61);
position 2 + 2c when the first line in the issuing order of c is ISSUING and every waiting passthrough write that
overlaps it waits for it (R84, R85). -/
def Obligations.ArbiterTakesFirstReadySource : Prop :=
  (∀ (s : State) (p : Fin 17), s.nextAdmission = some p ↔
    s.iq.length < 16 ∧ s.sourceReady (sourceAt p) = true
      ∧ ∀ q : Fin 17, (q - s.pointer).val < (p - s.pointer).val → s.sourceReady (sourceAt q) = false)
  ∧ ∀ s : State,
    (s.sourceReady (sourceAt 0) = true ↔
      ∃ e rest x, s.fifo = e :: rest ∧ e.waitSet = [] ∧ s.slot e.tag = some x)
    ∧ ∀ c : Ctx,
      (s.sourceReady (sourceAt (Fin.ofNat 17 (1 + 2 * c.val))) = true ↔
        ∃ older e younger, (s.context c).entries = older ++ e :: younger ∧ (∀ o ∈ older, o.state ≠ .pending)
          ∧ e.state = .pending ∧ ∀ c', ∀ l ∈ (s.context c').lines, l.span.overlaps e.span = false)
      ∧ (s.sourceReady (sourceAt (Fin.ofNat 17 (2 + 2 * c.val))) = true ↔
        ∃ k rest before l after, (s.context c).issuing = k :: rest
          ∧ (s.context c).lines = before ++ l :: after ∧ (∀ b ∈ before, b.slot ≠ k) ∧ l.slot = k ∧ l.state = .issuing
          ∧ ∀ e ∈ s.fifo, ∀ x, s.slot e.tag = some x → x.req.kind = .write →
              x.req.span.overlaps l.span = true → (c, k) ∈ e.waitSet)

/-- R64, R126, R137: PASSTHROUGH_ADMISSION runs in every state. Where the arbiter's next admission is the oldest
passthrough request (while the Issue Queue has room and the pointer is at position 0, when that request waits for no
line), its request joins the Issue Queue's tail with the master's data and its strobes, it leaves the FIFO, the pointer
moves to position 1, and a write marks every overlapping read-ahead entry stale. Otherwise nothing changes. -/
def Obligations.PassthroughAdmissionJoinsIssueQueue : Prop :=
  (∀ (s : State) (e : FifoEntry) (rest : List FifoEntry) (x : HostSlot), s.fifo = e :: rest → s.slot e.tag = some x →
    (s.nextAdmission = some 0 ∨ (s.iq.length < 16 ∧ s.pointer = 0 ∧ e.waitSet = [])) →
    ∃ t q, exec .passthroughAdmission s = .next t
      ∧ State.Resettled (State.mapContexts { s with iq := s.iq ++ [q], fifo := rest, pointer := 1 } fun _ y =>
          { y with entries := y.entries.map fun g =>
              if x.req.kind = .write ∧ g.span.overlaps x.req.span = true then { g with state := g.state.stale }
              else g }) t
      ∧ q.kind = x.req.kind ∧ q.span = x.req.span ∧ q.origin = .host e.tag ∧ q.detached = false
      ∧ q.span.start = x.req.address.toNat - x.req.address.toNat % 4 ∧ q.span.beats = x.req.beats
      ∧ (x.req.kind = .read → q.data = [] ∧ q.strobes = [])
      ∧ (x.req.kind = .write → q.strobes.length = 4 * x.req.beats ∧ q.data.length = 4 * x.req.beats
          ∧ (∀ i < 4 * x.req.beats, q.strobes[i]? = some (x.req.strobes.getD i false
              && decide (x.req.offset ≤ i ∧ i < x.req.offset + x.req.length)))
          ∧ (∀ i < 4 * x.req.beats, i < x.req.data.length → q.data[i]? = x.req.data[i]?)
          ∧ (x.req.data.length = 4 * x.req.beats → q.data = x.req.data)))
  ∧ (∀ s : State, ∃ t, exec .passthroughAdmission s = .next t)
  ∧ ∀ s : State, s.nextAdmission ≠ some 0 → exec .passthroughAdmission s = .next s

/-- R62, R137: the admission of a read-ahead candidate makes a READ of its span at the Issue Queue's tail and sets the
entry REQUESTED; the pointer moves past the source. -/
def Obligations.ReadAheadAdmissionRequestsEntry : Prop :=
  ∀ (s : State) (c : Ctx) (e : Entry), s.nextAdmission = some (Fin.ofNat 17 (1 + 2 * c.val)) →
    s.readCandidate c = some e →
    ∃ t, exec (.readAheadAdmission c) s = .next t ∧ e.state = .pending ∧ e ∈ (s.context c).entries
      ∧ State.Resettled (State.setContext
          { s with
            iq := s.iq ++ [{
              kind := .read, span := e.span, data := [], strobes := [],
              origin := .readAhead c (s.context c).serial e.seq, detached := false }]
            pointer := Fin.ofNat 17 (2 + 2 * c.val) } c
          { s.context c with entries := (s.context c).entries.map fun g =>
              if g.seq = e.seq then { g with state := .requested } else g }) t

/-- R83, R85, R86: the admission of a context's first issuing line makes one WRITE of its write range with strobes on
its valid bytes; the line leaves the context and every wait set, and the pointer moves past the source. -/
def Obligations.GatherLineAdmissionMakesWrite : Prop :=
  ∀ (s : State) (c : Ctx) (l : GatherLine), s.nextAdmission = some (Fin.ofNat 17 (2 + 2 * c.val)) →
    s.gatherCandidate c = some l →
    ∃ t q, exec (.gatherLineAdmission c) s = .next t ∧ l.state = .issuing ∧ l ∈ (s.context c).lines
      ∧ State.Resettled (State.setContext
          { s with
            iq := s.iq ++ [q], pointer := Fin.ofNat 17 (3 + 2 * c.val)
            fifo := s.fifo.map fun e => { e with waitSet := e.waitSet.filter fun w => w != (c, l.slot) } } c
          { s.context c with
            lines := (s.context c).lines.filter fun g => g.slot != l.slot
            issuing := (s.context c).issuing.filter fun g => g != l.slot }) t
      ∧ q.kind = .write ∧ q.span = l.span ∧ q.origin = .gather c (s.context c).serial l.addr ∧ q.detached = false
      ∧ q.data.length = 4 * l.span.beats ∧ q.strobes.length = 4 * l.span.beats
      ∧ ∀ i < 4 * l.span.beats, q.strobes[i]? = some (l.valid.getLsbD (l.span.start - l.addr + i))
          ∧ q.data[i]? = some (if l.valid.getLsbD (l.span.start - l.addr + i) then
              l.data.getD (l.span.start - l.addr + i) 0 else 0)

/-- R132, R138: with the channel free, the oldest Issue Queue entry without a hazard in flight or with an older entry
takes the lowest free tag, becomes IN_FLIGHT and is placed on the channel; while the channel is busy nothing is
issued; the memory side's taking frees the channel. -/
def Obligations.IssueTakesOldestEligibleEntry : Prop :=
  (∀ (s : State) (older younger : List IqEntry) (e : IqEntry) (m : MemTag),
    let blocked (before : List IqEntry) (o : IqEntry) : Prop :=
      (∃ u a, s.track u = some a ∧ a.state = .inFlight ∧ hazard a.kind a.span o.kind o.span = true)
        ∨ ∃ b ∈ before, hazard b.kind b.span o.kind o.span = true
    s.channel = none → s.iq = older ++ e :: younger → ¬ blocked older e →
    (∀ a o b, older = a ++ o :: b → blocked a o) →
    s.track m = none → (∀ u, u < m → s.track u ≠ none) →
    exec .issue s = .next { s.setTrack m (some {
        kind := e.kind, span := e.span, origin := e.origin,
        detached := e.detached, state := .inFlight, sent := s.timebase }) with
      iq := older ++ younger
      channel := some {
        kind := e.kind, address := e.span.start, beats := e.span.beats, tag := m, data := e.data,
        strobes := e.strobes } })
  ∧ ∀ s : State, (s.channel.isSome = true → exec .issue s = .next s)
      ∧ exec .memoryRequestTaken s = .next { s with channel := none }

/-- R143, R144: a response on a QUARANTINED tag frees the tag and posts LATE_RESPONSE; a response on a free tag posts
STRAY_RESPONSE with the tag alone; nothing else changes. -/
def Obligations.LateAndStrayResponsesAreReported : Prop :=
  ∀ (s : State) (m : MemTag) (st : MemStatus) (data : List Byte), s.rstLow = false →
    (s.track m = none → exec (.memoryResponse m st data) s
      = .next (s.post { kind := .strayResponse, timestamp := s.timebase, value := some m.val }))
    ∧ ∀ e, s.track m = some e → e.state = .quarantined →
      exec (.memoryResponse m st data) s = .next ((s.setTrack m none).post
        { kind := .lateResponse, timestamp := s.timebase, value := some m.val, address := some e.span.start,
          reason := if st = .fault then some .memory else none,
          tag := match e.origin with
            | .host h => some h
            | _ => none,
          context := match e.origin with
            | .host _ => none
            | .readAhead c _ _ => some c
            | .gather c _ _ => some c,
          serial := match e.origin with
            | .host _ => none
            | .readAhead _ n _ => some n
            | .gather _ n _ => some n })

/-- R115, R127, R141: memory's answer to a passthrough request frees its tag and answers the transaction: OKAY with
memory's bytes at the addressed bytes and zero elsewhere for a read, or FAULT with reason MEMORY. -/
def Obligations.PassthroughIsAnsweredByMemory : Prop :=
  ∀ (s : State) (m : MemTag) (e : TrackEntry) (h : HostTag) (x : HostSlot) (data : List Byte),
    s.rstLow = false → s.track m = some e → e.state = .inFlight → e.origin = .host h → s.slot h = some x →
    x.answer = none →
    (∃ t, exec (.memoryResponse m .fault data) s = .next t
      ∧ State.Resettled ((s.setTrack m none).answer h (some .memory)) t)
    ∧ ∃ t bytes, exec (.memoryResponse m .okay data) s = .next t
      ∧ State.Resettled { (s.setTrack m none).setSlot h (some { x with
          readData := bytes, answer := some ⟨.okay, bytes⟩ }) with responses := s.responses ++ [h] } t
      ∧ (x.req.kind = .write → bytes = [])
      ∧ (x.req.kind = .read → bytes.length = 4 * x.req.beats
          ∧ ∀ i b, i < 4 * x.req.beats → data[i]? = some b → bytes[i]? = some
              (if x.req.offset ≤ i ∧ i < x.req.offset + x.req.length then b else 0))

/-- R65, R66, R73: the answer to an attached read fills its REQUESTED entry with the element's lanes, returns a
REQUESTED_STALE one to PENDING, or on FAULT poisons it and posts READ_FAULT; a detached read changes no entry. -/
def Obligations.ReadAnswerChangesItsEntry : Prop :=
  ∀ (s : State) (m : MemTag) (a : TrackEntry) (c : Ctx) (n : BitVec 16) (q : Nat) (e : Entry) (d : Descriptor)
      (data : List Byte), s.rstLow = false → s.track m = some a → a.state = .inFlight →
    a.origin = .readAhead c n q → (s.context c).snapshot = some d → e ∈ (s.context c).entries → e.seq = q →
    (∀ g ∈ (s.context c).entries, g.seq = q → g = e) → (e.state = .requested ∨ e.state = .requestedStale) →
    let s₁ := s.setTrack m none
    let set (st : EntryState) : State := s₁.setContext c { s.context c with
      entries := (s.context c).entries.map fun g => if g.seq = q then { g with state := st } else g }
    (a.detached = true → ∀ st, ∃ t, exec (.memoryResponse m st data) s = .next t ∧ s₁.Resettled t)
    ∧ (a.detached = false →
      (e.state = .requested → ∃ t v, exec (.memoryResponse m .okay data) s = .next t ∧ (set (.filled v)).Resettled t
        ∧ ∀ j : Fin 4, (d.memWidth ≤ j.val → v.get j = 0)
            ∧ ∀ b, j.val < d.memWidth → data[e.addr - e.span.start + j.val]? = some b → v.get j = b)
      ∧ (e.state = .requestedStale → ∃ t, exec (.memoryResponse m .okay data) s = .next t
        ∧ (set .pending).Resettled t)
      ∧ ∃ t, exec (.memoryResponse m .fault data) s = .next t
        ∧ State.Resettled ((set .poisoned).post {
            kind := .readFault, timestamp := s.timebase, context := some c,
            serial := some n, address := some e.addr, reason := some .memory, value := some e.ordinal }) t)

/-- R145: an IN_FLIGHT request whose time exceeds MEM_TIMEOUT_US is quarantined with MEMORY_TIMEOUT, and its origin is
told: a passthrough request is answered MEMORY_TIMEOUT; an attached read poisons its entry and posts READ_FAULT (R66), a
detached one does nothing more (R73); a line write posts WRITE_FAULT, and an attached one discards its context's lines
and faults it (R90, R91). R146: when every tag is then QUARANTINED, TRACKER_BLOCKED is posted too, before or after the
origin's records (log entry 9). With the setting 0 or the time not exceeded nothing happens. -/
def Obligations.TimedOutRequestIsQuarantined : Prop :=
  ∀ (s : State) (m : MemTag) (e : TrackEntry), s.track m = some e → e.state = .inFlight →
    let time := (s.timebase.toNat + 2 ^ 32 - e.sent.toNat) % 2 ^ 32
    let due : Prop := s.settings.memTimeoutUs ≠ 0 ∧ s.settings.memTimeoutUs < time
    let unblocked : Prop := ∃ u, u ≠ m ∧ ∀ y, s.track u = some y → y.state = .inFlight
    let timeout : EventRecord :=
      { kind := .memoryTimeout, timestamp := s.timebase, value := some m.val, address := some e.span.start }
    let told (r : EventRecord) : State := (s.setTrack m (some { e with state := .quarantined })).post r
    let tail (t : State) (p : State → Prop) : Prop := exec (.memoryTimeout m) s = .next t ∧ p t
    (¬ due → exec (.memoryTimeout m) s = .next s)
    ∧ (due → unblocked →
      (∀ h, e.origin = .host h → ∃ t, tail t
        (State.Resettled ((told { timeout with tag := some h }).answer h (some .memoryTimeout))))
      ∧ (∀ c n q, e.origin = .readAhead c n q →
        let s₁ := told { timeout with context := some c, serial := some n }
        (e.detached = true → ∃ t, tail t s₁.Resettled)
        ∧ (e.detached = false → ∀ g ∈ (s.context c).entries, g.seq = q →
          (∀ g' ∈ (s.context c).entries, g'.seq = q → g' = g) → (g.state = .requested ∨ g.state = .requestedStale) →
          ∃ t, tail t (State.Resettled (State.post
            (s₁.setContext c { s.context c with
              entries := (s.context c).entries.map fun g' => if g'.seq = q then { g' with state := .poisoned } else g' })
            { kind := .readFault, timestamp := s.timebase, context := some c, serial := some n,
              address := some g.addr, reason := some .memoryTimeout, value := some g.ordinal }))))
      ∧ (∀ c n l, e.origin = .gather c n l →
        let s₁ (v : Nat) := (told { timeout with context := some c, serial := some n }).post
          { kind := .writeFault, timestamp := s.timebase, context := some c, serial := some n, address := some l,
            reason := some .memoryTimeout, value := some v }
        (e.detached = true → ∃ t, tail t (s₁ 0).Resettled)
        ∧ (e.detached = false → ∃ t, tail t fun t =>
          (s₁ (s.context c).lines.length).FaultedBy t c .memoryTimeout ∧ (t.context c).lines = []
            ∧ (t.context c).issuing = [] ∧ t.attachedWrites c = 0
            ∧ (∀ g ∈ t.fifo, ∀ w ∈ g.waitSet, w.1 ≠ c)
            ∧ (t.track m).map TrackEntry.state = some .quarantined)))
    ∧ (due → ¬ unblocked → ∃ t, tail t fun t =>
      (∀ u, (t.track u).map TrackEntry.state = some .quarantined)
      ∧ (t.events.length < 32 → { kind := .trackerBlocked, timestamp := s.timebase } ∈ t.events
          ∧ ∃ r ∈ t.events, r.kind = .memoryTimeout ∧ r.timestamp = s.timebase ∧ r.value = some m.val
            ∧ r.address = some e.span.start)
      ∧ ∀ h x, e.origin = .host h → s.slot h = some x → x.answer = none → s.events.length + 3 ≤ 32 →
          let blocked : EventRecord := { kind := .trackerBlocked, timestamp := s.timebase }
          let answered := s.hostFaultRecord h x .memoryTimeout
          (∃ y, t.slot h = some y ∧ y.answer = some ⟨.fault, x.readData⟩)
            ∧ (t.events = s.events ++ [{ timeout with tag := some h }, blocked, answered]
              ∨ t.events = s.events ++ [{ timeout with tag := some h }, answered, blocked]))

/-! ### The Management Link -/

/-- R153, R156: frames begin and end with MSEL#, the address byte selects the part, and bytes that end no command
move the frame record alone. A frame's fields that no rule resets in the same frame are kept as the model keeps them
(log entries 1, 4 and 14). -/
def Obligations.FramePhasesFollowBytes : Prop :=
  ∀ (s : State) (b : Byte),
    let f := s.link
    let moved (g : Frame) : Prop := exec (.linkByteComplete b) s = .next { s with link := g }
    (s.mselLow = false → s.rstLow = false → f.phase = .idle →
      exec .frameBegin s = .next { s with mselLow := true, link := { Frame.idle with phase := .address } })
    ∧ (s.mselLow = false → s.rstLow = true → exec .frameBegin s = .next { s with mselLow := true })
    ∧ exec .frameEnd s = .next { s with mselLow := false, link := Frame.idle }
    ∧ (f.phase = .address → b = s.linkAddress → moved { f with phase := .command, count := f.count + 1 })
    ∧ (f.phase = .address → b ≠ s.linkAddress → moved { f with phase := .ignored, count := f.count + 1 })
    ∧ (f.phase = .ignored → moved { f with count := f.count + 1 })
    ∧ (∀ (k : Command) (n : Nat), f.phase = .command → b = k.code → k.paramLen ≠ some 0 →
        moved { f with phase := .parameters, count := f.count + 1, code := some b }
        ∧ (f.params = [] → k.paramLen = some (n + 1) → ∀ ps : List Byte, ps.length ≤ n →
            ps.foldl State.linkByte (s.linkByte b) = { s with link := { f with
              phase := .parameters, count := f.count + 1 + ps.length, code := some b, params := ps } }))
    ∧ (f.phase = .command → (∀ k : Command, k.code ≠ b) →
        exec (.unknownCommand b) s = .next { s with link := f.answered b .unknownCommand [] })

/-- R151, R153, R155: in an addressed frame MDO carries 0x00 before the response; when a command has acted it carries
the status byte, and each further byte of the frame moves it to the next reply byte, then to 0x00, with nothing but
the frame record changed. -/
def Obligations.ResponseIsShiftedOut : Prop :=
  ∀ (s : State) (filler : List Byte),
    ((s.link.phase = .command ∨ s.link.phase = .parameters) → s.link.mdo = some 0)
    ∧ ((s.link.phase = .idle ∨ s.link.phase = .address ∨ s.link.phase = .ignored) → s.link.mdo = none)
    ∧ (∀ b st reply, (s.link.answered b st reply).phase = .response
        ∧ (s.link.answered b st reply).response = st.code :: reply)
    ∧ (s.link.phase = .response →
      let t := filler.foldl State.linkByte s
      t = { s with link := t.link } ∧ t.link.phase = .response
        ∧ t.link.mdo = some (s.link.response.getD filler.length 0)
        ∧ ∀ b, exec (.linkByteComplete b) t = .next (t.linkByte b))

/-- R155, R159: the byte that completes a command makes it act in that event: it gets a status and a reply, and a
command that is refused changes nothing outside the frame record and has no reply. -/
def Obligations.RefusalChangesNothing : Prop :=
  ∀ (s : State) (k : Command) (b : Byte), k ≠ .writeDesc → s.link.completing b = some k →
    ∃ st reply u, exec (k.instr b) s = .next u ∧ u.link = s.link.answered b st reply
      ∧ (st ≠ .ok → reply = [] ∧ u = { s with link := u.link })

/-- R155, R158: a read command is answered OK with the report of the state as it stands, and changes nothing else; an
index out of range is BAD_INDEX. The replies carry their fields, lowest byte first, at the offsets of Tables 42 to 45,
with the codes of Table 46. A head between two walks reports the counts of its latest head check (R124; log entry 16). -/
def Obligations.ReadCommandsReportAndChangeNothing : Prop :=
  let laid (r : List Byte) (n : Nat) (fields : List (Nat × Nat × Nat)) : Prop :=
    r.length = n ∧ ∀ f ∈ fields, (r.drop f.1).take f.2.1 = encodeLE f.2.1 f.2.2
  ((∀ d : Descriptor, d.report = encodeLE 4 d.marks.toNat
        ++ Field.inReply.flatMap (fun f => encodeLE f.width (d.fieldCode f)) ∧ d.report.length = 54)
    ∧ (∀ (x : Context) (h : Option (HostTag × Nat × Nat)), laid (x.report h) 42
        [(0, 1, match x.state with | .idle => 0 | .active => 1 | .draining => 2 | .faulted => 3),
         (1, 1, (x.descIndex.map Fin.val).getD 0xFF), (2, 2, x.serial.toNat),
         (4, 1, match x.snapshot.map Descriptor.direction with | some .read => 0 | some .write => 1 | none => 0xFF),
         (13, 1, if x.take = .exhausted then 1 else 0), (14, 6, x.progress), (20, 4, x.passes.toNat),
         (24, 1, match x.endCause with | none => 0 | some .exhausted => 1 | some .ended => 2 | some .limit => 3),
         (25, 1, match x.faultReason with
            | none => 0 | some .launchRefused => 4 | some .writeFault => 5 | some .memoryTimeout => 6),
         (26, 1, x.launchQ.length), (31, 1, x.service.length), (32, 1, (h.map fun h => h.1.val).getD 0xFF),
         (33, 1, (h.map fun h => h.2.1).getD 0), (34, 1, (h.map fun h => h.2.2).getD 0),
         (35, 1, match x.hold with | .none => 0 | .pace => 1 | .lead => 2 | .data => 3 | .line => 4 | .next => 5),
         (36, 4, x.holdStart.toNat), (40, 1, x.entries.length), (41, 1, x.lines.length)]
      ∧ ∀ k : Fin 4,
        (∀ p, x.take = .at p → (∀ d, x.snapshot = some d → k.val < d.levels) →
          ((x.report h).drop (5 + 2 * k.val)).take 2 = encodeLE 2 (p.get k))
        ∧ ((x.take = .exhausted ∨ ∃ d, x.snapshot = some d ∧ d.levels ≤ k.val) →
          ((x.report h).drop (5 + 2 * k.val)).take 2 = [0, 0])
        ∧ (x.report h)[27 + k.val]? = some (BitVec.ofNat 8 ((x.launchQ[k.val]?.map Fin.val).getD 0xFF)))
    ∧ (∀ a : Aperture, laid a.report 7
        [(0, 4, a.base.toNat), (4, 1, a.sizeExp), (5, 1, a.context), (6, 1, if a.enabled = true then 1 else 0)])
    ∧ (∀ (s : State) f, s.pacing f = none → laid (s.pacingReport f) 19
        [(0, 1, 0), (1, 1, 0), (2, 2, 0), (4, 2, 0), (6, 1, 0), (7, 6, (s.context f).progress), (13, 6, 0)])
    ∧ (∀ (s : State) f l, s.pacing f = some l → laid (s.pacingReport f) 19
        [(0, 1, 1), (1, 1, l.leader), (2, 2, l.gap), (4, 2, l.lead.getD 0),
         (6, 1, match l.state with | .armed => 1 | .broken => 2), (7, 6, (s.context f).progress),
         (13, 6, (s.context l.leader).progress)])
    ∧ (∀ t : Settings, laid t.report 8
        [(0, 1, t.clockMhz), (1, 2, t.memTimeoutUs), (3, 3, t.paceLimitUs), (6, 2, t.gatherAgeUs)])
    ∧ (∀ e : EventRecord, laid e.report 22
        [(0, 1, e.kind.code.toNat),
         (1, 1, (if e.context.isSome then 1 else 0) + (if e.serial.isSome then 2 else 0)
            + (if e.descriptor.isSome then 4 else 0) + (if e.tag.isSome then 8 else 0)
            + (if e.address.isSome then 16 else 0) + (if e.reason.isSome then 32 else 0)
            + (if e.value.isSome then 64 else 0)),
         (2, 4, e.timestamp.toNat), (6, 1, (e.context.map Fin.val).getD 0), (7, 2, (e.serial.map BitVec.toNat).getD 0),
         (9, 1, (e.descriptor.map Fin.val).getD 0), (10, 1, (e.tag.map Fin.val).getD 0), (11, 4, e.address.getD 0),
         (15, 1, (e.reason.map fun r => r.code.toNat).getD 0), (16, 6, e.value.getD 0)])
    ∧ [EventKind.walkDone, .mark, .launchRefused, .hostFault, .readFault, .writeFault, .memoryTimeout, .lateResponse,
        .strayResponse, .trackerBlocked, .tagReuse, .leaderLost, .eventsLost, .softResetDone].map EventKind.code
      = [1, 2, 3, 4, 5, 6, 7, 8, 9, 10, 11, 12, 13, 14]
    ∧ [Reason.exhausted, .ended, .limit, .launchRefused, .writeFault, .memoryTimeout, .memory, .aborted, .unwritten,
        .badStart, .positions, .laneMask, .addressRange, .apertureOverlap, .malformed, .span, .noWalk,
        .contextFaulted, .direction, .align, .overrun, .paceTimeout, .leaderLost].map Reason.code
      = [0x01, 0x02, 0x03, 0x04, 0x05, 0x06, 0x07, 0x08, 0x10, 0x11, 0x12, 0x13, 0x14, 0x15, 0x20, 0x21, 0x22, 0x23,
        0x24, 0x25, 0x26, 0x27, 0x28])
  ∧ ∀ s : State,
    let replies (i : Instr) (b : Byte) (reply : List Byte) : Prop :=
      exec i s = .next { s with link := s.link.answered b .ok reply }
    let bad (i : Instr) (b : Byte) : Prop := exec i s = .next { s with link := s.link.answered b .badIndex [] }
    (s.link.phase = .command →
      replies .identify 0x01 [0x08, 0x24, 8, 64, 8, s.strap.setWidth 8, 0xA4 + s.strap.setWidth 8]
      ∧ replies .readTimers 0x39 (s.settings.report ++ encodeLE 4 s.timebase.toNat)
      ∧ replies .readEventStatus 0x42 ([BitVec.ofNat 8 s.events.length, BitVec.ofNat 8 (s.events.countP s.enabled)]
          ++ encodeLE 2 s.loss ++ encodeLE 2 s.mask.toNat ++ [if s.attnLow = true then 1 else 0])
      ∧ (s.attnLow = true ↔ s.events.countP s.enabled ≠ 0)
      ∧ ∀ e rest, s.events = e :: rest → replies .peekEvent 0x41 e.report)
    ∧ ∀ b : Byte,
      (s.link.awaits .readDesc [] → (∀ i : DescIx, i.val = b.toNat → replies (.readDesc b) b (s.desc i).report)
        ∧ (64 ≤ b.toNat → bad (.readDesc b) b))
      ∧ (s.link.awaits .readAperture [] →
        (∀ i : ApIx, i.val = b.toNat → replies (.readAperture b) b (s.aperture i).report)
        ∧ (8 ≤ b.toNat → bad (.readAperture b) b))
      ∧ (s.link.awaits .readContext [] →
        (∀ c : Ctx, c.val = b.toNat → replies (.readContext b) b ((s.context c).report (s.headReport c))
          ∧ ((s.context c).service = [] → s.headReport c = none)
          ∧ ∀ h rest x, (s.context c).service = h :: rest → s.slot h = some x →
              s.headReport c = some (h, x.taken, x.count.getD 0 - x.taken))
        ∧ (8 ≤ b.toNat → bad (.readContext b) b))
      ∧ (s.link.awaits .readPacing [] →
        (∀ f : Ctx, f.val = b.toNat → replies (.readPacing b) b (s.pacingReport f))
        ∧ (8 ≤ b.toNat → bad (.readPacing b) b))

/-! ### Tables and settings -/

/-- R3, R4, R157: what each parameter byte of WRITE_DESC brings about: the index and the pair count are checked, an
identifier that names no field and a value that is not accepted are refused with the pair's number, and an accepted
pair sets its field and its mark, leaves every other field and mark, and ends the command when it is the last. R153: the
frame record counts the pairs applied and holds no pair after one is applied or refused. That a byte which ends the
command is the row WRITE_DESC, and any other the row LINK_BYTE_COMPLETE, is the model's choice (log entry 4). -/
def Obligations.WriteDescAppliesPairs : Prop :=
  ∀ (s : State) (b : Byte), s.link.phase = .parameters → s.link.code = some Command.writeDesc.code →
    let f := s.link
    let refused (st : Status) (n : Nat) : Prop :=
      exec (.writeDesc b) s = .next { s with link := f.answered b st [BitVec.ofNat 8 n] }
    let goes (t : State) (g : Frame) : Prop := exec (.linkByteComplete b) s
      = .next { t with link := { g with count := f.count + 1, params := f.params ++ [b] } }
    (f.desc = none → (64 ≤ b.toNat → refused .badIndex 0)
      ∧ ∀ i : DescIx, i.val = b.toNat → goes s { f with desc := some i })
    ∧ (∀ i, f.desc = some i → f.pairs = none → ((b.toNat = 0 ∨ 16 < b.toNat) → refused .badValue 0)
      ∧ (1 ≤ b.toNat → b.toNat ≤ 16 → goes s { f with pairs := some b.toNat }))
    ∧ (∀ i n, f.desc = some i → f.pairs = some n → f.field = none →
      (Field.ofId b = none → refused .badValue (f.applied + 1))
      ∧ ∀ g, Field.ofId b = some g → goes s { f with field := some g })
    ∧ ∀ i n g, f.desc = some i → f.pairs = some n → f.field = some g →
      (f.value.length + 1 < g.width → goes s { f with value := f.value ++ [b] })
      ∧ (f.value.length + 1 = g.width →
        let v := decodeLE (f.value ++ [b])
        let left (n : Nat) : Frame := { f with applied := n, field := none, value := [] }
        (¬ g.accepts v → exec (.writeDesc b) s = .next { s with
          link := (left f.applied).answered b .badValue [BitVec.ofNat 8 (f.applied + 1)] })
        ∧ (g.accepts v → ∃ d : Descriptor, d.fieldCode g = v ∧ d.written g = true
          ∧ (∀ h, h ≠ g → d.fieldCode h = (s.desc i).fieldCode h ∧ d.written h = (s.desc i).written h)
          ∧ (f.applied + 1 = n → exec (.writeDesc b) s
              = .next { s.setDesc i d with link := (left n).answered b .ok [BitVec.ofNat 8 n] })
          ∧ (f.applied + 1 ≠ n →
              goes (s.setDesc i d) { f with applied := f.applied + 1, field := none, value := [] })))

/-- R6: CLEAR_DESC puts the record in its cleared state and touches nothing else, an index of 64 or more is BAD_INDEX,
and a launch from a cleared record is refused UNWRITTEN. -/
def Obligations.ClearDescClearsOneRecord : Prop :=
  ∀ s : State, s.link.awaits .clearDesc [] →
    (∀ b : Byte, 64 ≤ b.toNat → exec (.clearDesc b) s = .next { s with link := s.link.answered b .badIndex [] })
    ∧ ∀ (b : Byte) (i : DescIx), i.val = b.toNat → ∃ t, exec (.clearDesc b) s = .next t
      ∧ t = { s with descs := t.descs, link := s.link.answered b .ok [] }
      ∧ (∀ j, j ≠ i → t.desc j = s.desc j)
      ∧ t.launchCheck (t.desc i) = some .unwritten
      ∧ (t.desc i).marks = 0 ∧ ∀ f : Field, (t.desc i).fieldCode f =
          match f with
          | .laneMask => 0xF
          | .chain => 0xFF
          | .mark => 0xFFFFFFFF
          | .readAhead => 2
          | _ => 0

/-- R119: SET_APERTURE's checks in their order, and the record written when all pass. -/
def Obligations.SetApertureChecksInOrder : Prop :=
  ∀ (s : State) (i a₀ a₁ a₂ a₃ size ctx en : Byte),
    s.link.awaits .setAperture [i, a₀, a₁, a₂, a₃, size, ctx] →
    let base := decodeLE [a₀, a₁, a₂, a₃]
    let refused (st : Status) : Prop :=
      exec (.setAperture en) s = .next { s with link := s.link.answered en st [] }
    ((8 ≤ i.toNat ∨ 8 ≤ ctx.toNat) → refused .badIndex)
    ∧ ∀ (j : ApIx) (c : Ctx), j.val = i.toNat → c.val = ctx.toNat →
      let a : Aperture := { base := BitVec.ofNat 32 base, sizeExp := size.toNat, context := c, enabled := en == 1 }
      let valid : Prop := (12 ≤ size.toNat ∧ size.toNat ≤ 28) ∧ 2 ^ size.toNat ∣ base ∧ en.toNat ≤ 1
      let inUse : Prop := (s.aperture j).enabled = true ∧ en = 1
      let meetsAperture : Prop := ∃ l, l ≠ j ∧ (s.aperture l).enabled = true
        ∧ a.range.lo ≤ (s.aperture l).range.hi ∧ (s.aperture l).range.lo ≤ a.range.hi
      let meetsTarget : Prop := ∃ c' q, ((s.context c').state = .active ∨ (s.context c').state = .draining)
        ∧ (s.context c').region = some q ∧ a.range.lo ≤ q.hi ∧ q.lo ≤ a.range.hi
      (¬ valid → refused .badValue)
      ∧ (valid → inUse → refused .inUse)
      ∧ (valid → ¬ inUse → en = 1 → (meetsAperture ∨ meetsTarget) → refused .overlap)
      ∧ (valid → ¬ inUse → (en = 1 → ¬ meetsAperture ∧ ¬ meetsTarget) → exec (.setAperture en) s
          = .next { s.setAperture j a with link := s.link.answered en .ok [] }
        ∧ a.range.lo = (base : Int) ∧ a.range.hi = (base : Int) + 2 ^ size.toNat - 1)

/-- R96, R97, R98, R107: SET_PACING's checks in their order. An accepted command writes the link, ARMED unless the
leader is FAULTED; under a BROKEN link a checked head of the ACTIVE follower that needs elements is answered.
CLEAR_PACING removes the follower's link and replies with the number removed. R39, R97, R98, R103: either command
decides every hold afresh under the table it leaves, the follower's, the old leader's and the new leader's among them,
and a hold that remains PACE or LEAD keeps its hold start time (`HoldsAfresh`); nothing else is decided but what every
event decides (`Settles`). -/
def Obligations.PacingLinkIsSetAndCleared : Prop :=
  (∀ s : State, s.link.awaits .clearPacing [] →
    (∀ b : Byte, 8 ≤ b.toNat → exec (.clearPacing b) s = .next { s with link := s.link.answered b .badIndex [] })
    ∧ ∀ (b : Byte) (f : Ctx), f.val = b.toNat →
      let removed : Byte := if s.pacing f = none then 0 else 1
      ∃ u : State, State.Settles (s.setPacing f none) u ∧ s.HoldsAfresh u
        ∧ exec (.clearPacing b) s = .next { u with link := s.link.answered b .ok [removed] })
  ∧ ∀ (s : State) (fo le g₀ g₁ m₀ m₁ : Byte), s.link.awaits .setPacing [fo, le, g₀, g₁, m₀] →
    let gap := decodeLE [g₀, g₁]
    let limit := decodeLE [m₀, m₁]
    let refused (st : Status) : Prop := exec (.setPacing m₁) s = .next { s with link := s.link.answered m₁ st [] }
    ((8 ≤ fo.toNat ∨ 8 ≤ le.toNat) → refused .badIndex)
    ∧ ∀ f l : Ctx, f.val = fo.toNat → l.val = le.toNat →
      let loop : Prop := ∃ n < 8, s.ahead n l = some f
      let tight : Prop := limit ≠ 0 ∧ limit ≤ gap
      let link : PacingLink := { leader := l, gap := gap, lead := if limit = 0 then none else some limit,
                                 state := if (s.context l).state = .faulted then .broken else .armed }
      (loop → refused .loop)
      ∧ (¬ loop → tight → refused .limit)
      ∧ (¬ loop → ¬ tight → ∃ u, exec (.setPacing m₁) s = .next { u with link := s.link.answered m₁ .ok [] }
        ∧ u.pacing f = some link ∧ (∀ f', f' ≠ f → u.pacing f' = s.pacing f') ∧ s.HoldsAfresh u
        ∧ (∀ c, (s.context c).state = (u.context c).state ∧ (s.context c).progress = (u.context c).progress
            ∧ (s.context c).launchQ = (u.context c).launchQ)
        ∧ ((s.context f).service = [] ∨ (s.context f).state ≠ .active ∨
            ((s.context f).headChecked = true ∧ link.state = .armed) → State.Settles (s.setPacing f (some link)) u)
        ∧ (∀ h rest x n d, link.state = .broken → (s.context f).state = .active → (s.context f).snapshot = some d →
            (s.context f).service = h :: rest → s.slot h = some x → x.answer = none →
            (s.context f).headChecked = true → x.count = some n → x.taken < n →
            (s.responses ++ [h]) <+: u.responses ∧ ∃ y, u.slot h = some y ∧ y.answer = some ⟨.fault, x.readData⟩))

/-- R161, R163: SET_TIMERS refuses a CLOCK_MHZ outside 25 to 200; otherwise it writes all four settings, leaves the
Timebase and the microsecond in progress, and compares the timers against the new values at once. A setting written as
0, or with its value in force, does nothing more; under a new GATHER_AGE_US every OPEN line whose age has reached it
becomes ISSUING (R80); under a new PACE_LIMIT_US every head held PACE or LEAD for longer is answered PACE_TIMEOUT, and no
other (R105); under a new MEM_TIMEOUT_US every request in flight for longer is quarantined with MEMORY_TIMEOUT, and no
other (R145). The settings kept in force and the free order of what runs out together are log entries 21 and 8. -/
def Obligations.SetTimersWritesSettings : Prop :=
  ∀ (s : State) (mhz m₀ m₁ p₀ p₁ p₂ g₀ g₁ : Byte), s.link.awaits .setTimers [mhz, m₀, m₁, p₀, p₁, p₂, g₀] →
    let new : Settings := { clockMhz := mhz.toNat, memTimeoutUs := decodeLE [m₀, m₁],
                            paceLimitUs := decodeLE [p₀, p₁, p₂], gatherAgeUs := decodeLE [g₀, g₁] }
    let kept (a b : Nat) : Prop := b = 0 ∨ b = a
    let since (v : BitVec 32) : Nat := (s.timebase.toNat + 2 ^ 32 - v.toNat) % 2 ^ 32
    let pace := kept s.settings.paceLimitUs new.paceLimitUs
    let mem := kept s.settings.memTimeoutUs new.memTimeoutUs
    let gather := kept s.settings.gatherAgeUs new.gatherAgeUs
    (mhz.toNat < 25 ∨ 200 < mhz.toNat →
      exec (.setTimers g₁) s = .next { s with link := s.link.answered g₁ .badValue [] })
    ∧ (25 ≤ mhz.toNat → mhz.toNat ≤ 200 →
      ∃ u : State, exec (.setTimers g₁) s = .next { u with link := s.link.answered g₁ .ok [] }
        ∧ u.settings = new ∧ u.timebase = s.timebase ∧ u.usLength = s.usLength ∧ s.responses <+: u.responses
        ∧ (pace → mem → (gather → State.Resettled { s with settings := new, choices := u.choices } u)
          ∧ (¬ gather → u = { s with settings := new, choices := u.choices, ctx := u.ctx }
            ∧ ∀ c, ∀ l ∈ (s.context c).lines, l.state = .opened → new.gatherAgeUs ≤ since l.openedAt →
              l.issue ∈ (u.context c).lines))
        ∧ (mem → u.tracker = s.tracker ∧ u.iq = s.iq ∧ u.links = s.links)
        ∧ (mem → ¬ pace →
          (∀ c h rest x n, (s.context c).state = .active → (s.context c).snapshot.isSome = true →
            (s.context c).service = h :: rest → s.slot h = some x → x.answer = none →
            (s.context c).headChecked = true → x.count = some n → x.taken < n →
            (((s.context c).hold = .pace ∧ s.paceStep c = .pace) ∨ ((s.context c).hold = .lead ∧ s.paceStep c = .lead)) →
            (∀ g, g ≠ c → h ∉ (s.context g).service) → new.paceLimitUs < since (s.context c).holdStart →
            (∃ y, u.slot h = some y ∧ y.answer = some ⟨.fault, x.readData⟩) ∧ h ∈ u.responses
              ∧ (u.context c).service <:+ rest ∧ (u.context c).state = .active
              ∧ (u.context c).take = (s.context c).take ∧ (u.context c).progress = (s.context c).progress
              ∧ (u.events.length < 32 → s.hostFaultRecord h x .paceTimeout ∈ u.events))
          ∧ ∀ c, ¬ (((s.context c).hold = .pace ∨ (s.context c).hold = .lead)
              ∧ new.paceLimitUs < since (s.context c).holdStart) →
            (u.context c).service = (s.context c).service)
        ∧ (¬ mem → ∀ m e, s.track m = some e → e.state = .inFlight →
          (new.memTimeoutUs < since e.sent → ∃ y, u.track m = some y ∧ y.state = .quarantined ∧ y.kind = e.kind
            ∧ y.span = e.span ∧ y.origin = e.origin ∧ y.sent = e.sent
            ∧ (u.events.length < 32 → ∃ r ∈ u.events, r.kind = .memoryTimeout ∧ r.timestamp = s.timebase
              ∧ r.value = some m.val ∧ r.address = some e.span.start))
          ∧ (since e.sent ≤ new.memTimeoutUs → ∃ y, u.track m = some y ∧ y.state = .inFlight)))

/-- R165, R110, R44, R149: SOFT_RESET aborts every context with purge, in ascending order, and so answers the
transactions of their Service Queues ABORTED in that order; it breaks no link and posts no LEADER_LOST, arms every link, detaches the walk requests and
posts SOFT_RESET_DONE last; the reply counts the lines discarded, and the tables, settings and passthrough requests
stay. -/
def Obligations.SoftResetAbortsEveryContext : Prop :=
  ∀ s : State, s.link.phase = .command →
    let n := (allCtx.map fun c => (s.context c).lines.length).sum
    ∃ t, exec .softReset s = .next t ∧ t.link = s.link.answered 0x7E .ok [BitVec.ofNat 8 n]
      ∧ (∀ c, t.context c = { s.context c with
          state := .idle, region := none, launchQ := [], service := [], headChecked := false, hold := .none,
          shortfall := 0, entries := [], lines := [], issuing := [] })
      ∧ (∀ f, t.pacing f = (s.pacing f).map fun l => { l with state := .armed })
      ∧ t.iq = s.iq.map (fun e => match e.origin with
          | .host _ => e
          | _ => { e with detached := true })
      ∧ (∀ m, t.track m = (s.track m).map fun e => match e.origin with
          | .host _ => e
          | _ => { e with detached := true })
      ∧ t.fifo = s.fifo.map (fun e => { e with waitSet := [] })
      ∧ (s.Waits (allCtx.flatMap fun c => (s.context c).service) →
          s.AnsweredFault t (allCtx.flatMap fun c => (s.context c).service) .aborted)
      ∧ (∀ e ∈ t.events, e.kind = .leaderLost → e ∈ s.events)
      ∧ s.responses <+: t.responses ∧ s.events <+: t.events
      ∧ (t.loss = 0 → t.events.getLast? = some
          { kind := .softResetDone, timestamp := s.timebase, value := some n })
      ∧ t.descs = s.descs ∧ t.apertures = s.apertures ∧ t.settings = s.settings ∧ t.timebase = s.timebase
      ∧ t.strap = s.strap ∧ t.mask = s.mask ∧ t.channel = s.channel ∧ t.pointer = s.pointer
      ∧ (∀ h x, s.slot h = some x → x.cls = some .passthrough → (∀ c, h ∉ (s.context c).service) →
          t.slot h = some x)

/-! ### Events and attention -/

/-- R169, R170, R171: a record posted to a full queue is dropped and counted up to 65,535. POP_EVENT replies with the
oldest record and removes it; with a loss count, EVENTS_LOST with that count takes the freed slot and the count
returns to 0. PEEK_EVENT removes nothing, and both are EMPTY on an empty queue. -/
def Obligations.LostEventsAreCountedAndReported : Prop :=
  (∀ (s : State) (e : EventRecord),
    (s.events.length < 32 → s.post e = { s with events := s.events ++ [e] })
    ∧ (32 ≤ s.events.length → ∃ n, s.post e = { s with loss := n }
        ∧ (s.loss < 65535 → n = s.loss + 1) ∧ (s.loss = 65535 → n = 65535)))
  ∧ ∀ s : State, s.link.phase = .command →
    (s.events = [] → exec .popEvent s = .next { s with link := s.link.answered 0x40 .empty [] }
      ∧ exec .peekEvent s = .next { s with link := s.link.answered 0x41 .empty [] })
    ∧ ∀ e rest, s.events = e :: rest →
      exec .peekEvent s = .next { s with link := s.link.answered 0x41 .ok e.report }
      ∧ (s.loss = 0 → exec .popEvent s
          = .next { s with events := rest, link := s.link.answered 0x40 .ok e.report })
      ∧ (s.loss ≠ 0 → exec .popEvent s = .next { s with
          events := rest ++ [{ kind := .eventsLost, timestamp := s.timebase, value := some s.loss }],
          loss := 0, link := s.link.answered 0x40 .ok e.report })

/-- R173, R174: SET_ATTENTION_MASK refuses a bit assigned to no kind; otherwise the mask takes the value, and ATTN# is
low exactly when the queue holds a record whose kind's bit is set. -/
def Obligations.AttentionMaskDecidesAttn : Prop :=
  ∀ (s : State) (lo hi : Byte), s.link.awaits .setAttentionMask [lo] →
    let v := lo.toNat + 256 * hi.toNat
    (2 ^ 14 ≤ v → exec (.setAttentionMask hi) s = .next { s with link := s.link.answered hi .badValue [] })
    ∧ (v < 2 ^ 14 → ∃ t, exec (.setAttentionMask hi) s = .next t
      ∧ t = { s with mask := t.mask, link := s.link.answered hi .ok [] } ∧ t.mask.toNat = v
      ∧ (t.attnLow = true ↔ ∃ e ∈ s.events, v.testBit (e.kind.code.toNat - 1) = true))

/-! ### Laws that every step keeps -/

/-- Each piece of the state changes only by the commands whose rules write it. The tables that walks share change by the
commands that can end, launch, fault or abort a walk (`movesWalk`) and by their own: the context records (R21, R39, R58,
R79), the Pacing Link Table (R95 to R98, R106, R109, R110), the Host Transaction Table and the response order (R115,
R116), the Issue Queue (R135, R137 to R139), the Memory Tracker (R139, R140, R145) and the Event Queue (R167, R169 to
R171). The passthrough FIFO changes by R125, R126 and, in its wait sets, R83 and R93; the frame record by frames, bytes
and commands (R153 to R156); the rest by the rules of the commands named. That no command touches the commands that
wait is log entry 2, that MSEL# keeps its level over HARDWARE_RESET log entries 1 and 14, and the count of free choices
log entries 8 and 9. -/
def Obligations.TablesChangeOnlyByTheirCommands : Prop :=
  ∀ (i : Instr) (s t : State), exec i s = .next t →
    t.pending = s.pending
    ∧ (t.descs = s.descs ∨ i = .hardwareReset
        ∨ ∃ b, i = .writeDesc b ∨ i = .clearDesc b ∨ i = .linkByteComplete b)
    ∧ (t.apertures = s.apertures ∨ i = .hardwareReset ∨ ∃ b, i = .setAperture b)
    ∧ (t.settings = s.settings ∨ i = .hardwareReset ∨ ∃ b, i = .setTimers b)
    ∧ (t.mask = s.mask ∨ i = .hardwareReset ∨ ∃ b, i = .setAttentionMask b)
    ∧ (t.strap = s.strap ∨ i = .hardwareReset ∨ ∃ v, i = .rstRise v)
    ∧ (t.timebase = s.timebase ∨ i = .hardwareReset ∨ i = .timebaseTick)
    ∧ (t.mselLow = s.mselLow ∨ i = .frameBegin ∨ i = .frameEnd)
    ∧ (t.channel = s.channel ∨ i = .hardwareReset ∨ i = .issue ∨ i = .memoryRequestTaken)
    ∧ (t.pointer = s.pointer ∨ i = .hardwareReset ∨ i = .passthroughAdmission
        ∨ ∃ c, i = .readAheadAdmission c ∨ i = .gatherLineAdmission c)
    ∧ (t.links = s.links ∨ i = .hardwareReset ∨ movesWalk i = true ∨ ∃ b, i = .setPacing b ∨ i = .clearPacing b)
    ∧ (t.slots = s.slots ∨ i = .hardwareReset ∨ movesWalk i = true ∨ i = .hostResponseSent
        ∨ (∃ r, i = .hostRequestArrival r) ∨ (∃ c, i = .paceTimeout c) ∨ ∃ b, i = .setPacing b)
    ∧ ((t.events = s.events ∧ t.loss = s.loss) ∨ i = .hardwareReset ∨ movesWalk i = true ∨ i = .popEvent
        ∨ (∃ r, i = .hostRequestArrival r) ∨ (∃ c, i = .paceTimeout c) ∨ ∃ b, i = .setPacing b)
    ∧ (t.iq = s.iq ∨ i = .hardwareReset ∨ movesWalk i = true ∨ i = .issue ∨ i = .passthroughAdmission
        ∨ ∃ c, i = .readAheadAdmission c ∨ i = .gatherLineAdmission c)
    ∧ (t.tracker = s.tracker ∨ i = .hardwareReset ∨ movesWalk i = true ∨ i = .issue)
    ∧ (t.responses = s.responses ∨ i = .hardwareReset ∨ movesWalk i = true ∨ i = .hostResponseSent
        ∨ (∃ r, i = .hostRequestArrival r) ∨ (∃ c, i = .paceTimeout c) ∨ ∃ b, i = .setPacing b)
    ∧ (t.fifo = s.fifo ∨ i = .hardwareReset ∨ i = .passthroughAdmission ∨ (∃ r, i = .hostRequestArrival r)
        ∨ (∃ c, i = .gatherLineAdmission c) ∨ (∃ m st data, i = .memoryResponse m st data)
        ∨ (∃ m, i = .memoryTimeout m) ∨ (∃ b, i = .setTimers b ∨ i = .abortWalk b) ∨ i = .softReset)
    ∧ (t.ctx = s.ctx ∨ i = .hardwareReset ∨ movesWalk i = true ∨ i = .passthroughAdmission
        ∨ (∃ r, i = .hostRequestArrival r) ∨ (∃ c, i = .readAheadAdmission c ∨ i = .gatherLineAdmission c)
        ∨ (∃ c a, i = .gatherAgeExpiry c a) ∨ (∃ c, i = .paceTimeout c)
        ∨ ∃ b, i = .flushLines b ∨ i = .setPacing b ∨ i = .clearPacing b)
    ∧ (t.link = s.link ∨ i = .hardwareReset ∨ i = .frameBegin ∨ i = .frameEnd
        ∨ (∃ b, i = .linkByteComplete b ∨ i = .unknownCommand b) ∨ ∃ k b, i = Command.instr k b)
    ∧ (t.rstLow = s.rstLow ∨ i = .hardwareReset ∨ ∃ v, i = .rstRise v)
    ∧ (t.usLength = s.usLength ∨ i = .hardwareReset ∨ i = .timebaseTick)
    ∧ (t.choices = s.choices ∨ (∃ m, i = .memoryTimeout m) ∨ ∃ b, i = .setTimers b)

/-- R100, R101: over any step, a context's progress grows by at most 1, and then the context was ACTIVE; its own link,
if it has one, is ARMED and its leader's progress is at least the new progress plus GAP; and an ARMED link that it
leads, with an ACTIVE follower and a LEAD_LIMIT, leaves the new progress within the limit. -/
def Obligations.EveryTakenElementIsPaced : Prop :=
  ∀ (s t : State) (c : Ctx), step s = .next t → (s.context c).progress < (t.context c).progress →
    (s.context c).state = .active ∧ (t.context c).progress = (s.context c).progress + 1
    ∧ (∀ l, s.pacing c = some l → l.state = .armed
        ∧ (t.context c).progress + l.gap ≤ (s.context l.leader).progress
        ∧ (t.context l.leader).progress = (s.context l.leader).progress)
    ∧ ∀ f l n, s.pacing f = some l → l.leader = c → l.state = .armed → (s.context f).state = .active →
        l.lead = some n → (t.context c).progress ≤ (s.context f).progress + n

/-- R140, with its sentence: every step keeps it. -/
def Obligations.EveryStepKeepsTrackerLaw : Prop :=
  ∀ s t : State, s.TrackerLaw → step s = .next t → t.TrackerLaw

/-- R135, R169, R170: every step keeps the capacities of the Issue Queue and the Event Queue, and a loss count that is
not 0 only while the Event Queue is full. -/
def Obligations.EveryStepKeepsQueueLaw : Prop :=
  ∀ s t : State, s.QueueLaw → step s = .next t → t.QueueLaw

/-- R21, R27, R34, R36: every step keeps what a context holds in each state. -/
def Obligations.EveryStepKeepsContextLaw : Prop :=
  ∀ s t : State, s.ContextLaw → step s = .next t → t.ContextLaw

/-- R20, R119: every step keeps the enabled apertures apart from each other and from every running walk's target
region. -/
def Obligations.EveryStepKeepsApertureLaw : Prop :=
  ∀ s t : State, s.ApertureLaw → step s = .next t → t.ApertureLaw

/-- R95, R96, R106, R109: every step keeps the links free of cycles, each lead limit above its gap, and every link
whose leader is FAULTED BROKEN. -/
def Obligations.EveryStepKeepsPacingLaw : Prop :=
  ∀ s t : State, s.PacingLaw → step s = .next t → t.PacingLaw

/-- R115 to R117: every step keeps the response order naming each ANSWERED slot exactly once. -/
def Obligations.EveryStepKeepsResponseLaw : Prop :=
  ∀ s t : State, s.ResponseLaw → step s = .next t → t.ResponseLaw

/-- R54, R58, R76, R77: every step keeps the capacities of the read-ahead queues and gather lines, and one OPEN line
per line address. -/
def Obligations.EveryStepKeepsBufferLaw : Prop :=
  ∀ s t : State, s.BufferLaw → step s = .next t → t.BufferLaw

/-- The state after reset meets every law above. Its choices are log entries 1 and 14. -/
def Obligations.ResetMeetsTheLaws : Prop :=
  let s := State.reset
  s.TrackerLaw ∧ s.QueueLaw ∧ s.ContextLaw ∧ s.ApertureLaw ∧ s.PacingLaw ∧ s.ResponseLaw ∧ s.BufferLaw
end

