-- ==== Sys2Proof/Laws/State.lean ====
section
/-! SUPPORT. The small lemmas of the state record: what each update leaves of every field, and what it makes of the
table it writes. -/

namespace Sys2Proof.Machine

open Sys2Proof

variable (s : State)

/-! ### `setContext` -/

@[simp] theorem State.setContext_rstLow (c : Ctx) (x : Context) : (s.setContext c x).rstLow = s.rstLow := rfl
@[simp] theorem State.setContext_mselLow (c : Ctx) (x : Context) : (s.setContext c x).mselLow = s.mselLow := rfl
@[simp] theorem State.setContext_strap (c : Ctx) (x : Context) : (s.setContext c x).strap = s.strap := rfl
@[simp] theorem State.setContext_link (c : Ctx) (x : Context) : (s.setContext c x).link = s.link := rfl
@[simp] theorem State.setContext_settings (c : Ctx) (x : Context) : (s.setContext c x).settings = s.settings := rfl
@[simp] theorem State.setContext_timebase (c : Ctx) (x : Context) : (s.setContext c x).timebase = s.timebase := rfl
@[simp] theorem State.setContext_usLength (c : Ctx) (x : Context) : (s.setContext c x).usLength = s.usLength := rfl
@[simp] theorem State.setContext_descs (c : Ctx) (x : Context) : (s.setContext c x).descs = s.descs := rfl
@[simp] theorem State.setContext_apertures (c : Ctx) (x : Context) : (s.setContext c x).apertures = s.apertures := rfl
@[simp] theorem State.setContext_links (c : Ctx) (x : Context) : (s.setContext c x).links = s.links := rfl
@[simp] theorem State.setContext_slots (c : Ctx) (x : Context) : (s.setContext c x).slots = s.slots := rfl
@[simp] theorem State.setContext_responses (c : Ctx) (x : Context) : (s.setContext c x).responses = s.responses := rfl
@[simp] theorem State.setContext_fifo (c : Ctx) (x : Context) : (s.setContext c x).fifo = s.fifo := rfl
@[simp] theorem State.setContext_iq (c : Ctx) (x : Context) : (s.setContext c x).iq = s.iq := rfl
@[simp] theorem State.setContext_pointer (c : Ctx) (x : Context) : (s.setContext c x).pointer = s.pointer := rfl
@[simp] theorem State.setContext_tracker (c : Ctx) (x : Context) : (s.setContext c x).tracker = s.tracker := rfl
@[simp] theorem State.setContext_channel (c : Ctx) (x : Context) : (s.setContext c x).channel = s.channel := rfl
@[simp] theorem State.setContext_events (c : Ctx) (x : Context) : (s.setContext c x).events = s.events := rfl
@[simp] theorem State.setContext_loss (c : Ctx) (x : Context) : (s.setContext c x).loss = s.loss := rfl
@[simp] theorem State.setContext_mask (c : Ctx) (x : Context) : (s.setContext c x).mask = s.mask := rfl
@[simp] theorem State.setContext_choices (c : Ctx) (x : Context) : (s.setContext c x).choices = s.choices := rfl
@[simp] theorem State.setContext_pending (c : Ctx) (x : Context) : (s.setContext c x).pending = s.pending := rfl
@[simp] theorem State.setContext_desc (c : Ctx) (x : Context) (j : DescIx) : (s.setContext c x).desc j = s.desc j := rfl
@[simp] theorem State.setContext_aperture (c : Ctx) (x : Context) (j : ApIx) : (s.setContext c x).aperture j = s.aperture j := rfl
@[simp] theorem State.setContext_pacing (c : Ctx) (x : Context) (g : Ctx) : (s.setContext c x).pacing g = s.pacing g := rfl
@[simp] theorem State.setContext_slot (c : Ctx) (x : Context) (u : HostTag) : (s.setContext c x).slot u = s.slot u := rfl
@[simp] theorem State.setContext_track (c : Ctx) (x : Context) (u : MemTag) : (s.setContext c x).track u = s.track u := rfl

/-! ### `mapContexts` -/

@[simp] theorem State.mapContexts_rstLow (f : Ctx → Context → Context) : (s.mapContexts f).rstLow = s.rstLow := rfl
@[simp] theorem State.mapContexts_mselLow (f : Ctx → Context → Context) : (s.mapContexts f).mselLow = s.mselLow := rfl
@[simp] theorem State.mapContexts_strap (f : Ctx → Context → Context) : (s.mapContexts f).strap = s.strap := rfl
@[simp] theorem State.mapContexts_link (f : Ctx → Context → Context) : (s.mapContexts f).link = s.link := rfl
@[simp] theorem State.mapContexts_settings (f : Ctx → Context → Context) : (s.mapContexts f).settings = s.settings := rfl
@[simp] theorem State.mapContexts_timebase (f : Ctx → Context → Context) : (s.mapContexts f).timebase = s.timebase := rfl
@[simp] theorem State.mapContexts_usLength (f : Ctx → Context → Context) : (s.mapContexts f).usLength = s.usLength := rfl
@[simp] theorem State.mapContexts_descs (f : Ctx → Context → Context) : (s.mapContexts f).descs = s.descs := rfl
@[simp] theorem State.mapContexts_apertures (f : Ctx → Context → Context) : (s.mapContexts f).apertures = s.apertures := rfl
@[simp] theorem State.mapContexts_links (f : Ctx → Context → Context) : (s.mapContexts f).links = s.links := rfl
@[simp] theorem State.mapContexts_slots (f : Ctx → Context → Context) : (s.mapContexts f).slots = s.slots := rfl
@[simp] theorem State.mapContexts_responses (f : Ctx → Context → Context) : (s.mapContexts f).responses = s.responses := rfl
@[simp] theorem State.mapContexts_fifo (f : Ctx → Context → Context) : (s.mapContexts f).fifo = s.fifo := rfl
@[simp] theorem State.mapContexts_iq (f : Ctx → Context → Context) : (s.mapContexts f).iq = s.iq := rfl
@[simp] theorem State.mapContexts_pointer (f : Ctx → Context → Context) : (s.mapContexts f).pointer = s.pointer := rfl
@[simp] theorem State.mapContexts_tracker (f : Ctx → Context → Context) : (s.mapContexts f).tracker = s.tracker := rfl
@[simp] theorem State.mapContexts_channel (f : Ctx → Context → Context) : (s.mapContexts f).channel = s.channel := rfl
@[simp] theorem State.mapContexts_events (f : Ctx → Context → Context) : (s.mapContexts f).events = s.events := rfl
@[simp] theorem State.mapContexts_loss (f : Ctx → Context → Context) : (s.mapContexts f).loss = s.loss := rfl
@[simp] theorem State.mapContexts_mask (f : Ctx → Context → Context) : (s.mapContexts f).mask = s.mask := rfl
@[simp] theorem State.mapContexts_choices (f : Ctx → Context → Context) : (s.mapContexts f).choices = s.choices := rfl
@[simp] theorem State.mapContexts_pending (f : Ctx → Context → Context) : (s.mapContexts f).pending = s.pending := rfl
@[simp] theorem State.mapContexts_desc (f : Ctx → Context → Context) (j : DescIx) : (s.mapContexts f).desc j = s.desc j := rfl
@[simp] theorem State.mapContexts_aperture (f : Ctx → Context → Context) (j : ApIx) : (s.mapContexts f).aperture j = s.aperture j := rfl
@[simp] theorem State.mapContexts_pacing (f : Ctx → Context → Context) (g : Ctx) : (s.mapContexts f).pacing g = s.pacing g := rfl
@[simp] theorem State.mapContexts_slot (f : Ctx → Context → Context) (u : HostTag) : (s.mapContexts f).slot u = s.slot u := rfl
@[simp] theorem State.mapContexts_track (f : Ctx → Context → Context) (u : MemTag) : (s.mapContexts f).track u = s.track u := rfl

/-! ### `setDesc` -/

@[simp] theorem State.setDesc_rstLow (i : DescIx) (d : Descriptor) : (s.setDesc i d).rstLow = s.rstLow := rfl
@[simp] theorem State.setDesc_mselLow (i : DescIx) (d : Descriptor) : (s.setDesc i d).mselLow = s.mselLow := rfl
@[simp] theorem State.setDesc_strap (i : DescIx) (d : Descriptor) : (s.setDesc i d).strap = s.strap := rfl
@[simp] theorem State.setDesc_link (i : DescIx) (d : Descriptor) : (s.setDesc i d).link = s.link := rfl
@[simp] theorem State.setDesc_settings (i : DescIx) (d : Descriptor) : (s.setDesc i d).settings = s.settings := rfl
@[simp] theorem State.setDesc_timebase (i : DescIx) (d : Descriptor) : (s.setDesc i d).timebase = s.timebase := rfl
@[simp] theorem State.setDesc_usLength (i : DescIx) (d : Descriptor) : (s.setDesc i d).usLength = s.usLength := rfl
@[simp] theorem State.setDesc_apertures (i : DescIx) (d : Descriptor) : (s.setDesc i d).apertures = s.apertures := rfl
@[simp] theorem State.setDesc_ctx (i : DescIx) (d : Descriptor) : (s.setDesc i d).ctx = s.ctx := rfl
@[simp] theorem State.setDesc_links (i : DescIx) (d : Descriptor) : (s.setDesc i d).links = s.links := rfl
@[simp] theorem State.setDesc_slots (i : DescIx) (d : Descriptor) : (s.setDesc i d).slots = s.slots := rfl
@[simp] theorem State.setDesc_responses (i : DescIx) (d : Descriptor) : (s.setDesc i d).responses = s.responses := rfl
@[simp] theorem State.setDesc_fifo (i : DescIx) (d : Descriptor) : (s.setDesc i d).fifo = s.fifo := rfl
@[simp] theorem State.setDesc_iq (i : DescIx) (d : Descriptor) : (s.setDesc i d).iq = s.iq := rfl
@[simp] theorem State.setDesc_pointer (i : DescIx) (d : Descriptor) : (s.setDesc i d).pointer = s.pointer := rfl
@[simp] theorem State.setDesc_tracker (i : DescIx) (d : Descriptor) : (s.setDesc i d).tracker = s.tracker := rfl
@[simp] theorem State.setDesc_channel (i : DescIx) (d : Descriptor) : (s.setDesc i d).channel = s.channel := rfl
@[simp] theorem State.setDesc_events (i : DescIx) (d : Descriptor) : (s.setDesc i d).events = s.events := rfl
@[simp] theorem State.setDesc_loss (i : DescIx) (d : Descriptor) : (s.setDesc i d).loss = s.loss := rfl
@[simp] theorem State.setDesc_mask (i : DescIx) (d : Descriptor) : (s.setDesc i d).mask = s.mask := rfl
@[simp] theorem State.setDesc_choices (i : DescIx) (d : Descriptor) : (s.setDesc i d).choices = s.choices := rfl
@[simp] theorem State.setDesc_pending (i : DescIx) (d : Descriptor) : (s.setDesc i d).pending = s.pending := rfl
@[simp] theorem State.setDesc_context (i : DescIx) (d : Descriptor) (c' : Ctx) : (s.setDesc i d).context c' = s.context c' := rfl
@[simp] theorem State.setDesc_aperture (i : DescIx) (d : Descriptor) (j : ApIx) : (s.setDesc i d).aperture j = s.aperture j := rfl
@[simp] theorem State.setDesc_pacing (i : DescIx) (d : Descriptor) (g : Ctx) : (s.setDesc i d).pacing g = s.pacing g := rfl
@[simp] theorem State.setDesc_slot (i : DescIx) (d : Descriptor) (u : HostTag) : (s.setDesc i d).slot u = s.slot u := rfl
@[simp] theorem State.setDesc_track (i : DescIx) (d : Descriptor) (u : MemTag) : (s.setDesc i d).track u = s.track u := rfl

/-! ### `setAperture` -/

@[simp] theorem State.setAperture_rstLow (i : ApIx) (a : Aperture) : (s.setAperture i a).rstLow = s.rstLow := rfl
@[simp] theorem State.setAperture_mselLow (i : ApIx) (a : Aperture) : (s.setAperture i a).mselLow = s.mselLow := rfl
@[simp] theorem State.setAperture_strap (i : ApIx) (a : Aperture) : (s.setAperture i a).strap = s.strap := rfl
@[simp] theorem State.setAperture_link (i : ApIx) (a : Aperture) : (s.setAperture i a).link = s.link := rfl
@[simp] theorem State.setAperture_settings (i : ApIx) (a : Aperture) : (s.setAperture i a).settings = s.settings := rfl
@[simp] theorem State.setAperture_timebase (i : ApIx) (a : Aperture) : (s.setAperture i a).timebase = s.timebase := rfl
@[simp] theorem State.setAperture_usLength (i : ApIx) (a : Aperture) : (s.setAperture i a).usLength = s.usLength := rfl
@[simp] theorem State.setAperture_descs (i : ApIx) (a : Aperture) : (s.setAperture i a).descs = s.descs := rfl
@[simp] theorem State.setAperture_ctx (i : ApIx) (a : Aperture) : (s.setAperture i a).ctx = s.ctx := rfl
@[simp] theorem State.setAperture_links (i : ApIx) (a : Aperture) : (s.setAperture i a).links = s.links := rfl
@[simp] theorem State.setAperture_slots (i : ApIx) (a : Aperture) : (s.setAperture i a).slots = s.slots := rfl
@[simp] theorem State.setAperture_responses (i : ApIx) (a : Aperture) : (s.setAperture i a).responses = s.responses := rfl
@[simp] theorem State.setAperture_fifo (i : ApIx) (a : Aperture) : (s.setAperture i a).fifo = s.fifo := rfl
@[simp] theorem State.setAperture_iq (i : ApIx) (a : Aperture) : (s.setAperture i a).iq = s.iq := rfl
@[simp] theorem State.setAperture_pointer (i : ApIx) (a : Aperture) : (s.setAperture i a).pointer = s.pointer := rfl
@[simp] theorem State.setAperture_tracker (i : ApIx) (a : Aperture) : (s.setAperture i a).tracker = s.tracker := rfl
@[simp] theorem State.setAperture_channel (i : ApIx) (a : Aperture) : (s.setAperture i a).channel = s.channel := rfl
@[simp] theorem State.setAperture_events (i : ApIx) (a : Aperture) : (s.setAperture i a).events = s.events := rfl
@[simp] theorem State.setAperture_loss (i : ApIx) (a : Aperture) : (s.setAperture i a).loss = s.loss := rfl
@[simp] theorem State.setAperture_mask (i : ApIx) (a : Aperture) : (s.setAperture i a).mask = s.mask := rfl
@[simp] theorem State.setAperture_choices (i : ApIx) (a : Aperture) : (s.setAperture i a).choices = s.choices := rfl
@[simp] theorem State.setAperture_pending (i : ApIx) (a : Aperture) : (s.setAperture i a).pending = s.pending := rfl
@[simp] theorem State.setAperture_context (i : ApIx) (a : Aperture) (c' : Ctx) : (s.setAperture i a).context c' = s.context c' := rfl
@[simp] theorem State.setAperture_desc (i : ApIx) (a : Aperture) (j : DescIx) : (s.setAperture i a).desc j = s.desc j := rfl
@[simp] theorem State.setAperture_pacing (i : ApIx) (a : Aperture) (g : Ctx) : (s.setAperture i a).pacing g = s.pacing g := rfl
@[simp] theorem State.setAperture_slot (i : ApIx) (a : Aperture) (u : HostTag) : (s.setAperture i a).slot u = s.slot u := rfl
@[simp] theorem State.setAperture_track (i : ApIx) (a : Aperture) (u : MemTag) : (s.setAperture i a).track u = s.track u := rfl

/-! ### `setPacing` -/

@[simp] theorem State.setPacing_rstLow (f : Ctx) (l : Option PacingLink) : (s.setPacing f l).rstLow = s.rstLow := rfl
@[simp] theorem State.setPacing_mselLow (f : Ctx) (l : Option PacingLink) : (s.setPacing f l).mselLow = s.mselLow := rfl
@[simp] theorem State.setPacing_strap (f : Ctx) (l : Option PacingLink) : (s.setPacing f l).strap = s.strap := rfl
@[simp] theorem State.setPacing_link (f : Ctx) (l : Option PacingLink) : (s.setPacing f l).link = s.link := rfl
@[simp] theorem State.setPacing_settings (f : Ctx) (l : Option PacingLink) : (s.setPacing f l).settings = s.settings := rfl
@[simp] theorem State.setPacing_timebase (f : Ctx) (l : Option PacingLink) : (s.setPacing f l).timebase = s.timebase := rfl
@[simp] theorem State.setPacing_usLength (f : Ctx) (l : Option PacingLink) : (s.setPacing f l).usLength = s.usLength := rfl
@[simp] theorem State.setPacing_descs (f : Ctx) (l : Option PacingLink) : (s.setPacing f l).descs = s.descs := rfl
@[simp] theorem State.setPacing_apertures (f : Ctx) (l : Option PacingLink) : (s.setPacing f l).apertures = s.apertures := rfl
@[simp] theorem State.setPacing_ctx (f : Ctx) (l : Option PacingLink) : (s.setPacing f l).ctx = s.ctx := rfl
@[simp] theorem State.setPacing_slots (f : Ctx) (l : Option PacingLink) : (s.setPacing f l).slots = s.slots := rfl
@[simp] theorem State.setPacing_responses (f : Ctx) (l : Option PacingLink) : (s.setPacing f l).responses = s.responses := rfl
@[simp] theorem State.setPacing_fifo (f : Ctx) (l : Option PacingLink) : (s.setPacing f l).fifo = s.fifo := rfl
@[simp] theorem State.setPacing_iq (f : Ctx) (l : Option PacingLink) : (s.setPacing f l).iq = s.iq := rfl
@[simp] theorem State.setPacing_pointer (f : Ctx) (l : Option PacingLink) : (s.setPacing f l).pointer = s.pointer := rfl
@[simp] theorem State.setPacing_tracker (f : Ctx) (l : Option PacingLink) : (s.setPacing f l).tracker = s.tracker := rfl
@[simp] theorem State.setPacing_channel (f : Ctx) (l : Option PacingLink) : (s.setPacing f l).channel = s.channel := rfl
@[simp] theorem State.setPacing_events (f : Ctx) (l : Option PacingLink) : (s.setPacing f l).events = s.events := rfl
@[simp] theorem State.setPacing_loss (f : Ctx) (l : Option PacingLink) : (s.setPacing f l).loss = s.loss := rfl
@[simp] theorem State.setPacing_mask (f : Ctx) (l : Option PacingLink) : (s.setPacing f l).mask = s.mask := rfl
@[simp] theorem State.setPacing_choices (f : Ctx) (l : Option PacingLink) : (s.setPacing f l).choices = s.choices := rfl
@[simp] theorem State.setPacing_pending (f : Ctx) (l : Option PacingLink) : (s.setPacing f l).pending = s.pending := rfl
@[simp] theorem State.setPacing_context (f : Ctx) (l : Option PacingLink) (c' : Ctx) : (s.setPacing f l).context c' = s.context c' := rfl
@[simp] theorem State.setPacing_desc (f : Ctx) (l : Option PacingLink) (j : DescIx) : (s.setPacing f l).desc j = s.desc j := rfl
@[simp] theorem State.setPacing_aperture (f : Ctx) (l : Option PacingLink) (j : ApIx) : (s.setPacing f l).aperture j = s.aperture j := rfl
@[simp] theorem State.setPacing_slot (f : Ctx) (l : Option PacingLink) (u : HostTag) : (s.setPacing f l).slot u = s.slot u := rfl
@[simp] theorem State.setPacing_track (f : Ctx) (l : Option PacingLink) (u : MemTag) : (s.setPacing f l).track u = s.track u := rfl

/-! ### `setSlot` -/

@[simp] theorem State.setSlot_rstLow (t : HostTag) (x : Option HostSlot) : (s.setSlot t x).rstLow = s.rstLow := rfl
@[simp] theorem State.setSlot_mselLow (t : HostTag) (x : Option HostSlot) : (s.setSlot t x).mselLow = s.mselLow := rfl
@[simp] theorem State.setSlot_strap (t : HostTag) (x : Option HostSlot) : (s.setSlot t x).strap = s.strap := rfl
@[simp] theorem State.setSlot_link (t : HostTag) (x : Option HostSlot) : (s.setSlot t x).link = s.link := rfl
@[simp] theorem State.setSlot_settings (t : HostTag) (x : Option HostSlot) : (s.setSlot t x).settings = s.settings := rfl
@[simp] theorem State.setSlot_timebase (t : HostTag) (x : Option HostSlot) : (s.setSlot t x).timebase = s.timebase := rfl
@[simp] theorem State.setSlot_usLength (t : HostTag) (x : Option HostSlot) : (s.setSlot t x).usLength = s.usLength := rfl
@[simp] theorem State.setSlot_descs (t : HostTag) (x : Option HostSlot) : (s.setSlot t x).descs = s.descs := rfl
@[simp] theorem State.setSlot_apertures (t : HostTag) (x : Option HostSlot) : (s.setSlot t x).apertures = s.apertures := rfl
@[simp] theorem State.setSlot_ctx (t : HostTag) (x : Option HostSlot) : (s.setSlot t x).ctx = s.ctx := rfl
@[simp] theorem State.setSlot_links (t : HostTag) (x : Option HostSlot) : (s.setSlot t x).links = s.links := rfl
@[simp] theorem State.setSlot_responses (t : HostTag) (x : Option HostSlot) : (s.setSlot t x).responses = s.responses := rfl
@[simp] theorem State.setSlot_fifo (t : HostTag) (x : Option HostSlot) : (s.setSlot t x).fifo = s.fifo := rfl
@[simp] theorem State.setSlot_iq (t : HostTag) (x : Option HostSlot) : (s.setSlot t x).iq = s.iq := rfl
@[simp] theorem State.setSlot_pointer (t : HostTag) (x : Option HostSlot) : (s.setSlot t x).pointer = s.pointer := rfl
@[simp] theorem State.setSlot_tracker (t : HostTag) (x : Option HostSlot) : (s.setSlot t x).tracker = s.tracker := rfl
@[simp] theorem State.setSlot_channel (t : HostTag) (x : Option HostSlot) : (s.setSlot t x).channel = s.channel := rfl
@[simp] theorem State.setSlot_events (t : HostTag) (x : Option HostSlot) : (s.setSlot t x).events = s.events := rfl
@[simp] theorem State.setSlot_loss (t : HostTag) (x : Option HostSlot) : (s.setSlot t x).loss = s.loss := rfl
@[simp] theorem State.setSlot_mask (t : HostTag) (x : Option HostSlot) : (s.setSlot t x).mask = s.mask := rfl
@[simp] theorem State.setSlot_choices (t : HostTag) (x : Option HostSlot) : (s.setSlot t x).choices = s.choices := rfl
@[simp] theorem State.setSlot_pending (t : HostTag) (x : Option HostSlot) : (s.setSlot t x).pending = s.pending := rfl
@[simp] theorem State.setSlot_context (t : HostTag) (x : Option HostSlot) (c' : Ctx) : (s.setSlot t x).context c' = s.context c' := rfl
@[simp] theorem State.setSlot_desc (t : HostTag) (x : Option HostSlot) (j : DescIx) : (s.setSlot t x).desc j = s.desc j := rfl
@[simp] theorem State.setSlot_aperture (t : HostTag) (x : Option HostSlot) (j : ApIx) : (s.setSlot t x).aperture j = s.aperture j := rfl
@[simp] theorem State.setSlot_pacing (t : HostTag) (x : Option HostSlot) (g : Ctx) : (s.setSlot t x).pacing g = s.pacing g := rfl
@[simp] theorem State.setSlot_track (t : HostTag) (x : Option HostSlot) (u : MemTag) : (s.setSlot t x).track u = s.track u := rfl

/-! ### `setTrack` -/

@[simp] theorem State.setTrack_rstLow (t : MemTag) (x : Option TrackEntry) : (s.setTrack t x).rstLow = s.rstLow := rfl
@[simp] theorem State.setTrack_mselLow (t : MemTag) (x : Option TrackEntry) : (s.setTrack t x).mselLow = s.mselLow := rfl
@[simp] theorem State.setTrack_strap (t : MemTag) (x : Option TrackEntry) : (s.setTrack t x).strap = s.strap := rfl
@[simp] theorem State.setTrack_link (t : MemTag) (x : Option TrackEntry) : (s.setTrack t x).link = s.link := rfl
@[simp] theorem State.setTrack_settings (t : MemTag) (x : Option TrackEntry) : (s.setTrack t x).settings = s.settings := rfl
@[simp] theorem State.setTrack_timebase (t : MemTag) (x : Option TrackEntry) : (s.setTrack t x).timebase = s.timebase := rfl
@[simp] theorem State.setTrack_usLength (t : MemTag) (x : Option TrackEntry) : (s.setTrack t x).usLength = s.usLength := rfl
@[simp] theorem State.setTrack_descs (t : MemTag) (x : Option TrackEntry) : (s.setTrack t x).descs = s.descs := rfl
@[simp] theorem State.setTrack_apertures (t : MemTag) (x : Option TrackEntry) : (s.setTrack t x).apertures = s.apertures := rfl
@[simp] theorem State.setTrack_ctx (t : MemTag) (x : Option TrackEntry) : (s.setTrack t x).ctx = s.ctx := rfl
@[simp] theorem State.setTrack_links (t : MemTag) (x : Option TrackEntry) : (s.setTrack t x).links = s.links := rfl
@[simp] theorem State.setTrack_slots (t : MemTag) (x : Option TrackEntry) : (s.setTrack t x).slots = s.slots := rfl
@[simp] theorem State.setTrack_responses (t : MemTag) (x : Option TrackEntry) : (s.setTrack t x).responses = s.responses := rfl
@[simp] theorem State.setTrack_fifo (t : MemTag) (x : Option TrackEntry) : (s.setTrack t x).fifo = s.fifo := rfl
@[simp] theorem State.setTrack_iq (t : MemTag) (x : Option TrackEntry) : (s.setTrack t x).iq = s.iq := rfl
@[simp] theorem State.setTrack_pointer (t : MemTag) (x : Option TrackEntry) : (s.setTrack t x).pointer = s.pointer := rfl
@[simp] theorem State.setTrack_channel (t : MemTag) (x : Option TrackEntry) : (s.setTrack t x).channel = s.channel := rfl
@[simp] theorem State.setTrack_events (t : MemTag) (x : Option TrackEntry) : (s.setTrack t x).events = s.events := rfl
@[simp] theorem State.setTrack_loss (t : MemTag) (x : Option TrackEntry) : (s.setTrack t x).loss = s.loss := rfl
@[simp] theorem State.setTrack_mask (t : MemTag) (x : Option TrackEntry) : (s.setTrack t x).mask = s.mask := rfl
@[simp] theorem State.setTrack_choices (t : MemTag) (x : Option TrackEntry) : (s.setTrack t x).choices = s.choices := rfl
@[simp] theorem State.setTrack_pending (t : MemTag) (x : Option TrackEntry) : (s.setTrack t x).pending = s.pending := rfl
@[simp] theorem State.setTrack_context (t : MemTag) (x : Option TrackEntry) (c' : Ctx) : (s.setTrack t x).context c' = s.context c' := rfl
@[simp] theorem State.setTrack_desc (t : MemTag) (x : Option TrackEntry) (j : DescIx) : (s.setTrack t x).desc j = s.desc j := rfl
@[simp] theorem State.setTrack_aperture (t : MemTag) (x : Option TrackEntry) (j : ApIx) : (s.setTrack t x).aperture j = s.aperture j := rfl
@[simp] theorem State.setTrack_pacing (t : MemTag) (x : Option TrackEntry) (g : Ctx) : (s.setTrack t x).pacing g = s.pacing g := rfl
@[simp] theorem State.setTrack_slot (t : MemTag) (x : Option TrackEntry) (u : HostTag) : (s.setTrack t x).slot u = s.slot u := rfl

/-! ### What an update makes of its own table -/

theorem State.context_setContext (c c' : Ctx) (x : Context) :
    (s.setContext c x).context c' = if c = c' then x else s.context c' := by
  simp [State.context, State.setContext, Vector.get_eq_getElem, Vector.getElem_set, Fin.ext_iff]

@[simp] theorem State.context_setContext_self (c : Ctx) (x : Context) : (s.setContext c x).context c = x := by
  simp [State.context_setContext]

theorem State.context_setContext_of_ne {c c' : Ctx} (h : c ≠ c') (x : Context) :
    (s.setContext c x).context c' = s.context c' := by
  simp [State.context_setContext, h]

@[simp] theorem State.context_mapContexts (f : Ctx → Context → Context) (c : Ctx) :
    (s.mapContexts f).context c = f c (s.context c) := by
  simp [State.context, State.mapContexts, Vector.get_eq_getElem]

@[simp] theorem State.setContext_setContext (c : Ctx) (x y : Context) :
    (s.setContext c x).setContext c y = s.setContext c y := by
  simp [State.setContext]

theorem State.desc_setDesc (i j : DescIx) (d : Descriptor) :
    (s.setDesc i d).desc j = if i = j then d else s.desc j := by
  simp [State.desc, State.setDesc, Vector.get_eq_getElem, Vector.getElem_set, Fin.ext_iff]

@[simp] theorem State.desc_setDesc_self (i : DescIx) (d : Descriptor) : (s.setDesc i d).desc i = d := by
  simp [State.desc_setDesc]

theorem State.aperture_setAperture (i j : ApIx) (a : Aperture) :
    (s.setAperture i a).aperture j = if i = j then a else s.aperture j := by
  simp [State.aperture, State.setAperture, Vector.get_eq_getElem, Vector.getElem_set, Fin.ext_iff]

theorem State.pacing_setPacing (f g : Ctx) (l : Option PacingLink) :
    (s.setPacing f l).pacing g = if f = g then l else s.pacing g := by
  simp [State.pacing, State.setPacing, Vector.get_eq_getElem, Vector.getElem_set, Fin.ext_iff]

@[simp] theorem State.pacing_setPacing_self (f : Ctx) (l : Option PacingLink) : (s.setPacing f l).pacing f = l := by
  simp [State.pacing_setPacing]

theorem State.slot_setSlot (t u : HostTag) (x : Option HostSlot) :
    (s.setSlot t x).slot u = if t = u then x else s.slot u := by
  simp [State.slot, State.setSlot, Vector.get_eq_getElem, Vector.getElem_set, Fin.ext_iff]

@[simp] theorem State.slot_setSlot_self (t : HostTag) (x : Option HostSlot) : (s.setSlot t x).slot t = x := by
  simp [State.slot_setSlot]

theorem State.track_setTrack (t u : MemTag) (x : Option TrackEntry) :
    (s.setTrack t x).track u = if t = u then x else s.track u := by
  simp [State.track, State.setTrack, Vector.get_eq_getElem, Vector.getElem_set, Fin.ext_iff]

@[simp] theorem State.track_setTrack_self (t : MemTag) (x : Option TrackEntry) : (s.setTrack t x).track t = x := by
  simp [State.track_setTrack]

/-! ### Equality of states table by table -/

/-- Two context tables are equal when every context is. -/
theorem State.ctx_ext {s t : State} (h : ∀ c, s.context c = t.context c) : s.ctx = t.ctx := by
  apply Vector.ext
  intro i hi
  simpa [State.context, Vector.get_eq_getElem] using h ⟨i, hi⟩

/-- Two slot tables are equal when every slot is. -/
theorem State.slots_ext {s t : State} (h : ∀ u, s.slot u = t.slot u) : s.slots = t.slots := by
  apply Vector.ext
  intro i hi
  simpa [State.slot, Vector.get_eq_getElem] using h ⟨i, hi⟩

/-- Two tracker tables are equal when every entry is. -/
theorem State.tracker_ext {s t : State} (h : ∀ u, s.track u = t.track u) : s.tracker = t.tracker := by
  apply Vector.ext
  intro i hi
  simpa [State.track, Vector.get_eq_getElem] using h ⟨i, hi⟩

/-- Two link tables are equal when every link is. -/
theorem State.links_ext {s t : State} (h : ∀ f, s.pacing f = t.pacing f) : s.links = t.links := by
  apply Vector.ext
  intro i hi
  simpa [State.pacing, Vector.get_eq_getElem] using h ⟨i, hi⟩

/-- Writing back what a table holds changes nothing. -/
@[simp] theorem State.setContext_context (c : Ctx) : s.setContext c (s.context c) = s := by
  have h : (s.setContext c (s.context c)).ctx = s.ctx := State.ctx_ext fun c' => by
    by_cases e : c = c'
    · subst e; simp
    · simp [State.context_setContext_of_ne _ e]
  calc s.setContext c (s.context c) = { s with ctx := (s.setContext c (s.context c)).ctx } := rfl
    _ = s := by rw [h]

end Sys2Proof.Machine
end

