-- ==== Sys2Proof/Laws/Settle.lean ====
section
/-! SUPPORT. What `settle` can do, once: it resettles every context (`Context.Resettled`) and leaves everything else
as it was. Callers cite `State.settle_resettled`. -/

namespace Sys2Proof.Machine

open Sys2Proof

/-! ### Resettling is a preorder -/

theorem Context.Resettled.refl (x : Context) : x.Resettled x :=
  ⟨rfl, List.prefix_refl _, rfl, fun _ h _ => h, List.prefix_refl _⟩

theorem Context.Resettled.trans {x y z : Context} (h : x.Resettled y) (k : y.Resettled z) : x.Resettled z where
  rest := by rw [k.rest, h.rest]
  entries := h.entries.trans k.entries
  lines := k.lines.trans h.lines
  stay := fun l hl hi => k.stay l (h.stay l hl hi) hi
  issuing := h.issuing.trans k.issuing

theorem Context.Resettled.sameWalk {x y : Context} (h : x.Resettled y) : x.SameWalk y := h.rest

theorem Context.SameWalk.refl (x : Context) : x.SameWalk x := rfl

theorem Context.SameWalk.trans {x y z : Context} (h : x.SameWalk y) (k : y.SameWalk z) : x.SameWalk z := by
  unfold Context.SameWalk at *
  rw [k, h]

/-- Resettling keeps the number of gather lines. -/
theorem Context.Resettled.lines_length {x y : Context} (h : x.Resettled y) : y.lines.length = x.lines.length := by
  simpa using congrArg List.length h.lines

theorem State.Resettled.refl (s : State) : s.Resettled s := ⟨rfl, fun _ => .refl _⟩

theorem State.Resettled.trans {s t u : State} (h : s.Resettled t) (k : t.Resettled u) : s.Resettled u where
  rest := by rw [k.rest, h.rest]
  contexts := fun c => (h.contexts c).trans (k.contexts c)

/-- Rewriting every context by a function that resettles is a resettling. -/
theorem State.mapContexts_resettled (s : State) (f : Ctx → Context → Context)
    (h : ∀ c, (s.context c).Resettled (f c (s.context c))) : s.Resettled (s.mapContexts f) where
  rest := rfl
  contexts := fun c => by simpa using h c

/-! ### The parts of `settle` -/

@[simp] theorem GatherLine.issue_issue (l : GatherLine) : l.issue.issue = l.issue := rfl

/-- An ISSUING line stays as it is. -/
theorem GatherLine.issue_of_issuing {l : GatherLine} (h : l.state = .issuing) : l.issue = l := by
  cases l; simp_all [GatherLine.issue]

/-- Making some lines ISSUING resettles a context. -/
theorem Context.issueSome_resettled (x : Context) (p : GatherLine → Bool) :
    x.Resettled { x with lines := x.lines.map fun l => if p l then l.issue else l } where
  rest := rfl
  entries := List.prefix_refl _
  lines := by
    rw [List.map_map]
    apply List.map_congr_left
    intro l _
    by_cases e : p l = true <;> simp [e]
  stay := fun l hl hi => by
    refine List.mem_map.mpr ⟨l, hl, ?_⟩
    by_cases e : p l = true <;> simp [e, GatherLine.issue_of_issuing hi]
  issuing := List.prefix_refl _

/-- Creating entries resettles a context (R59). -/
theorem Context.createEntries_resettled (d : Descriptor) (n : Nat) (x : Context) :
    x.Resettled (x.createEntries d n) := by
  induction n generalizing x with
  | zero => exact .refl x
  | succ n ih =>
    unfold Context.createEntries
    split
    · exact .refl x
    · refine Context.Resettled.trans ?_ (ih _)
      exact ⟨rfl, List.prefix_append _ _, rfl, fun _ h _ => h, List.prefix_refl _⟩

theorem Context.withHold_resettled (x : Context) (now : BitVec 32) (h : Hold) : x.Resettled (x.withHold now h) :=
  ⟨rfl, List.prefix_refl _, rfl, fun _ h _ => h, List.prefix_refl _⟩

/-- Evictions only make lines ISSUING (R78). -/
theorem evict_issue (n : Nat) (need : List Nat) (ls : List GatherLine) :
    (evict n need ls).map GatherLine.issue = ls.map GatherLine.issue := by
  induction ls generalizing n with
  | nil => cases n <;> rfl
  | cons l ls ih =>
    cases n with
    | zero => rfl
    | succ n => unfold evict; split <;> simp [ih]

/-- Evictions keep the ISSUING lines (R79). -/
theorem mem_evict_of_issuing {n : Nat} {need : List Nat} {ls : List GatherLine} {l : GatherLine} (h : l ∈ ls)
    (hi : l.state = .issuing) : l ∈ evict n need ls := by
  induction ls generalizing n with
  | nil => cases h
  | cons a ls ih =>
    cases n with
    | zero => exact h
    | succ n =>
      unfold evict
      rcases List.mem_cons.mp h with rfl | h
      · simp [hi]
      · split <;> exact List.mem_cons_of_mem _ (ih h)

/-- The space step of a write element resettles (R77, R78). -/
theorem Context.waitForLines_resettled (x : Context) (now : BitVec 32) (n k : Nat) (need : List Nat) :
    x.Resettled { x.withHold now .line with lines := evict n need x.lines, shortfall := k } where
  rest := rfl
  entries := List.prefix_refl _
  lines := evict_issue _ _ _
  stay := fun _ hl hi => mem_evict_of_issuing hl hi
  issuing := List.prefix_refl _

theorem Context.clearShortfall_resettled (x : Context) (now : BitVec 32) :
    x.Resettled { x.withHold now .none with shortfall := 0 } where
  rest := rfl
  entries := List.prefix_refl _
  lines := rfl
  stay := fun _ hl _ => hl
  issuing := List.prefix_refl _

theorem Context.stepTwo_resettled (x : Context) (now : BitVec 32) : x.Resettled (x.stepTwo now) := by
  unfold Context.stepTwo
  split
  · split
    · generalize x.entries.head?.map Entry.state = st
      rcases st with _ | e
      · exact x.withHold_resettled now .data
      · cases e
        all_goals first | exact x.withHold_resettled now .data | exact x.withHold_resettled now .none
    · dsimp only
      split
      · exact x.clearShortfall_resettled now
      · exact x.waitForLines_resettled now _ _ _
  · exact x.withHold_resettled now .none

theorem State.decideHold_resettled (s : State) (c : Ctx) (x : Context) : x.Resettled (s.decideHold c x) := by
  unfold State.decideHold
  split
  · exact x.withHold_resettled _ _
  · split
    · split
      all_goals first | exact x.withHold_resettled _ _ | exact x.stepTwo_resettled _
    · exact x.withHold_resettled _ _
  · exact x.withHold_resettled _ _

theorem Context.orderIssuing_resettled (x : Context) : x.Resettled x.orderIssuing :=
  ⟨rfl, List.prefix_refl _, rfl, fun _ h _ => h, List.prefix_append _ _⟩

theorem State.fillContext_resettled (s : State) (c : Ctx) (x : Context) : x.Resettled (s.fillContext c x) := by
  unfold State.fillContext
  split
  · split
    · exact Context.createEntries_resettled _ _ _
    · exact .refl _
  · exact .refl _

theorem State.fill_resettled (s : State) : s.Resettled s.fill :=
  s.mapContexts_resettled _ fun c => s.fillContext_resettled c _

/-- Filling one Read-Ahead Queue resettles (R59). -/
theorem State.fillAt_resettled (s : State) (c : Ctx) : s.Resettled (s.fillAt c) where
  rest := rfl
  contexts := fun c' => by
    unfold State.fillAt
    by_cases e : c = c'
    · subst e; simpa using s.fillContext_resettled c _
    · simpa [State.context_setContext_of_ne _ e] using Context.Resettled.refl _

theorem State.flushHazards_resettled (s : State) : s.Resettled s.flushHazards :=
  s.mapContexts_resettled _ fun _ => Context.issueSome_resettled _ _

theorem State.decideAfresh_resettled (s : State) : s.Resettled s.decideAfresh :=
  (s.fill_resettled.trans s.fill.flushHazards_resettled).trans
    (State.mapContexts_resettled _ _ fun _ => State.decideHold_resettled _ _ _)

/-- THE law of `settle`: it decides the waits afresh and changes nothing else. -/
theorem State.settle_resettled (s : State) : s.Resettled s.settle :=
  s.decideAfresh_resettled.trans (State.mapContexts_resettled _ _ fun _ => Context.orderIssuing_resettled _)

/-- What `settle` makes of one context: its hold is decided on the filled and flushed state, and the lines made
ISSUING join the issuing order. -/
theorem State.settle_context (s : State) (c : Ctx) :
    s.settle.context c = (s.fill.flushHazards.decideHold c (s.fill.flushHazards.context c)).orderIssuing := by
  simp [State.settle, State.decideAfresh]

/-! ### What a resettling leaves, field by field -/

variable {s t : State}

theorem State.Resettled.events (h : s.Resettled t) : t.events = s.events := by rw [h.rest]
theorem State.Resettled.loss (h : s.Resettled t) : t.loss = s.loss := by rw [h.rest]
theorem State.Resettled.slots (h : s.Resettled t) : t.slots = s.slots := by rw [h.rest]
theorem State.Resettled.slot (h : s.Resettled t) (u : HostTag) : t.slot u = s.slot u := by rw [h.rest]; rfl
theorem State.Resettled.responses (h : s.Resettled t) : t.responses = s.responses := by rw [h.rest]
theorem State.Resettled.fifo (h : s.Resettled t) : t.fifo = s.fifo := by rw [h.rest]
theorem State.Resettled.iq (h : s.Resettled t) : t.iq = s.iq := by rw [h.rest]
theorem State.Resettled.tracker (h : s.Resettled t) : t.tracker = s.tracker := by rw [h.rest]
theorem State.Resettled.track (h : s.Resettled t) (u : MemTag) : t.track u = s.track u := by rw [h.rest]; rfl
theorem State.Resettled.apertures (h : s.Resettled t) : t.apertures = s.apertures := by rw [h.rest]
theorem State.Resettled.aperture (h : s.Resettled t) (i : ApIx) : t.aperture i = s.aperture i := by rw [h.rest]; rfl
theorem State.Resettled.pacing (h : s.Resettled t) (f : Ctx) : t.pacing f = s.pacing f := by rw [h.rest]; rfl
theorem State.Resettled.link (h : s.Resettled t) : t.link = s.link := by rw [h.rest]
theorem State.Resettled.pending (h : s.Resettled t) : t.pending = s.pending := by rw [h.rest]

theorem State.Resettled.state (h : s.Resettled t) (c : Ctx) : (t.context c).state = (s.context c).state := by
  rw [(h.contexts c).rest]
theorem State.Resettled.region (h : s.Resettled t) (c : Ctx) : (t.context c).region = (s.context c).region := by
  rw [(h.contexts c).rest]
theorem State.Resettled.service (h : s.Resettled t) (c : Ctx) : (t.context c).service = (s.context c).service := by
  rw [(h.contexts c).rest]
theorem State.Resettled.launchQ (h : s.Resettled t) (c : Ctx) : (t.context c).launchQ = (s.context c).launchQ := by
  rw [(h.contexts c).rest]
theorem State.Resettled.progress (h : s.Resettled t) (c : Ctx) : (t.context c).progress = (s.context c).progress := by
  rw [(h.contexts c).rest]

end Sys2Proof.Machine
end

