-- ==== Sys2Proof/Laws/Ops.lean ====
section
/-! SUPPORT. What the shared operations can do, once each: posting, answering, head checks, detachment, link breaks,
faults, launches and the end of a walk. Callers cite these lemmas instead of unfolding the operations. -/

namespace Sys2Proof.Machine

open Sys2Proof

variable (s : State)

/-! ### Posting (R169) -/

theorem State.post_room {s : State} (h : s.events.length < 32) (e : EventRecord) :
    s.post e = { s with events := s.events ++ [e] } := by
  simp [State.post, h]

theorem State.post_full {s : State} (h : ¬ s.events.length < 32) (e : EventRecord) :
    s.post e = { s with loss := min 65535 (s.loss + 1) } := by
  simp [State.post, h]

/-- Posting changes the queue and the loss count only. -/
theorem State.post_rest (e : EventRecord) :
    s.post e = { s with events := (s.post e).events, loss := (s.post e).loss } := by
  unfold State.post
  split <;> rfl

@[simp] theorem State.post_ctx (e : EventRecord) : (s.post e).ctx = s.ctx := by rw [State.post_rest]
@[simp] theorem State.post_context (e : EventRecord) (c : Ctx) : (s.post e).context c = s.context c := by
  rw [State.post_rest]; rfl
@[simp] theorem State.post_slots (e : EventRecord) : (s.post e).slots = s.slots := by rw [State.post_rest]
@[simp] theorem State.post_slot (e : EventRecord) (t : HostTag) : (s.post e).slot t = s.slot t := by
  rw [State.post_rest]; rfl
@[simp] theorem State.post_responses (e : EventRecord) : (s.post e).responses = s.responses := by rw [State.post_rest]
@[simp] theorem State.post_links (e : EventRecord) : (s.post e).links = s.links := by rw [State.post_rest]
@[simp] theorem State.post_pacing (e : EventRecord) (f : Ctx) : (s.post e).pacing f = s.pacing f := by
  rw [State.post_rest]; rfl
@[simp] theorem State.post_tracker (e : EventRecord) : (s.post e).tracker = s.tracker := by rw [State.post_rest]
@[simp] theorem State.post_track (e : EventRecord) (t : MemTag) : (s.post e).track t = s.track t := by
  rw [State.post_rest]; rfl
@[simp] theorem State.post_iq (e : EventRecord) : (s.post e).iq = s.iq := by rw [State.post_rest]
@[simp] theorem State.post_fifo (e : EventRecord) : (s.post e).fifo = s.fifo := by rw [State.post_rest]
@[simp] theorem State.post_apertures (e : EventRecord) : (s.post e).apertures = s.apertures := by rw [State.post_rest]
@[simp] theorem State.post_timebase (e : EventRecord) : (s.post e).timebase = s.timebase := by rw [State.post_rest]

/-- A posted record joins the tail or is dropped: the records before it stay (R169). -/
theorem State.post_events (e : EventRecord) : s.events <+: (s.post e).events := by
  unfold State.post
  split
  · exact List.prefix_append _ _
  · exact List.prefix_refl _

/-! ### Serving the Host Port

`State.Serves s t`: from `s` to `t`, transactions were answered and left the Service Queues, heads were checked and
read-ahead entries created for their demand, and pacing links may have broken; records were posted; nothing else
changed. -/

/-- What answering, head checks and link breaks may change. -/
structure State.Serves (s t : State) : Prop where
  rest : t = { s with
    ctx := t.ctx, slots := t.slots, responses := t.responses, events := t.events, loss := t.loss, links := t.links }
  contexts : ∀ c, t.context c = { s.context c with
    service := (t.context c).service, headChecked := (t.context c).headChecked, hold := (t.context c).hold,
    shortfall := (t.context c).shortfall, cursor := (t.context c).cursor, entries := (t.context c).entries }
  service : ∀ c, (t.context c).service <:+ (s.context c).service
  entries : ∀ c, (s.context c).entries <+: (t.context c).entries
  responses : s.responses <+: t.responses
  events : s.events <+: t.events
  free : ∀ u, t.slot u = none ↔ s.slot u = none
  links : ∀ f, t.pacing f = s.pacing f ∨
    ∃ l, s.pacing f = some l ∧ t.pacing f = some { l with state := .broken }

theorem State.Serves.refl : s.Serves s :=
  ⟨rfl, fun _ => rfl, fun _ => List.suffix_refl _, fun _ => List.prefix_refl _, List.prefix_refl _,
    List.prefix_refl _, fun _ => Iff.rfl, fun _ => .inl rfl⟩

variable {s}

theorem State.Serves.trans {t u : State} (h : s.Serves t) (k : t.Serves u) : s.Serves u where
  rest := by rw [k.rest, h.rest]
  contexts := fun c => by rw [k.contexts c, h.contexts c]
  service := fun c => (k.service c).trans (h.service c)
  entries := fun c => (h.entries c).trans (k.entries c)
  responses := h.responses.trans k.responses
  events := h.events.trans k.events
  free := fun v => (k.free v).trans (h.free v)
  links := fun f => by
    rcases k.links f with e | ⟨l, e, e'⟩
    · rcases h.links f with g | ⟨m, g, g'⟩
      · exact .inl (e.trans g)
      · exact .inr ⟨m, g, e.trans g'⟩
    · rcases h.links f with g | ⟨m, g, g'⟩
      · exact .inr ⟨l, g ▸ e, e'⟩
      · rw [g'] at e
        obtain rfl := Option.some.inj e
        exact .inr ⟨m, g, e'⟩

theorem State.Serves.state {t : State} (h : s.Serves t) (c : Ctx) : (t.context c).state = (s.context c).state := by
  rw [h.contexts c]
theorem State.Serves.region {t : State} (h : s.Serves t) (c : Ctx) : (t.context c).region = (s.context c).region := by
  rw [h.contexts c]
theorem State.Serves.launchQ {t : State} (h : s.Serves t) (c : Ctx) :
    (t.context c).launchQ = (s.context c).launchQ := by rw [h.contexts c]
theorem State.Serves.snapshot {t : State} (h : s.Serves t) (c : Ctx) :
    (t.context c).snapshot = (s.context c).snapshot := by rw [h.contexts c]
theorem State.Serves.lines {t : State} (h : s.Serves t) (c : Ctx) : (t.context c).lines = (s.context c).lines := by
  rw [h.contexts c]
theorem State.Serves.progress {t : State} (h : s.Serves t) (c : Ctx) :
    (t.context c).progress = (s.context c).progress := by rw [h.contexts c]
theorem State.Serves.tracker {t : State} (h : s.Serves t) : t.tracker = s.tracker := by rw [h.rest]
theorem State.Serves.track {t : State} (h : s.Serves t) (u : MemTag) : t.track u = s.track u := by rw [h.rest]; rfl
theorem State.Serves.iq {t : State} (h : s.Serves t) : t.iq = s.iq := by rw [h.rest]
theorem State.Serves.aperture {t : State} (h : s.Serves t) (i : ApIx) : t.aperture i = s.aperture i := by
  rw [h.rest]; rfl

variable (s)

theorem State.post_serves (e : EventRecord) : s.Serves (s.post e) where
  rest := by rw [s.post_rest e]
  contexts := fun c => by simp
  service := fun c => by simp
  entries := fun c => by simp
  responses := by simp
  events := s.post_events e
  free := fun u => by simp
  links := fun f => by simp

/-- An OKAY answer: the transaction's slot takes it, and the tag joins the response order (R115). -/
theorem State.answer_okay {s : State} {t : HostTag} {x : HostSlot} (h : s.slot t = some x) (ho : x.answer = none) :
    s.answer t none =
      { s.setSlot t (some { x with answer := some { status := .okay, data := x.readData } }) with
        responses := s.responses ++ [t] } := by
  simp only [State.answer, h, ho, Option.isNone_none, if_true]

/-- A FAULT answer posts HOST_FAULT as well (R115, R128). -/
theorem State.answer_fault {s : State} {t : HostTag} {x : HostSlot} (h : s.slot t = some x) (ho : x.answer = none)
    (r : HostReason) :
    s.answer t (some r) =
      State.post { s.setSlot t (some { x with answer := some { status := .fault, data := x.readData } }) with
        responses := s.responses ++ [t] } (s.hostFaultRecord t x r) := by
  simp [State.answer, h, ho]

/-- A free or answered slot is beyond the reach of an answer (R117). -/
theorem State.answer_closed {s : State} {t : HostTag} (h : ∀ x, s.slot t = some x → x.answer.isSome = true)
    (why : Option HostReason) : s.answer t why = s := by
  unfold State.answer
  cases hx : s.slot t with
  | none => rfl
  | some x =>
    cases ha : x.answer with
    | none => have := h x hx; simp [ha] at this
    | some a => simp [ha]

/-- Answering one transaction serves. -/
theorem State.answer_serves (t : HostTag) (why : Option HostReason) : s.Serves (s.answer t why) := by
  by_cases hc : ∀ x, s.slot t = some x → x.answer.isSome = true
  · rw [State.answer_closed hc]; exact .refl s
  · simp only [not_forall, Option.isSome_iff_ne_none, not_not] at hc
    obtain ⟨x, hx, ho⟩ := hc
    have ho : x.answer = none := by simpa using ho
    have base (a : HostAnswer) : s.Serves { s.setSlot t (some { x with answer := some a }) with
        responses := s.responses ++ [t] } := by
      refine ⟨rfl, fun c => rfl, fun c => List.suffix_refl _, fun c => List.prefix_refl _, List.prefix_append _ _,
        List.prefix_refl _, fun u => ?_, fun f => .inl rfl⟩
      show (s.setSlot t _).slot u = none ↔ _
      rw [State.slot_setSlot]
      by_cases e : t = u
      · subst e; simp [hx]
      · simp [e]
    cases why with
    | none => rw [State.answer_okay hx ho]; exact base _
    | some r => rw [State.answer_fault hx ho]; exact (base _).trans (State.post_serves _ _)

/-- Replacing the service fields of one context serves. -/
theorem State.setService_serves (c : Ctx) (q : List HostTag) (hq : q <:+ (s.context c).service) (hc : Bool) (hd : Hold)
    (sf : Nat) : s.Serves (s.setContext c
      { s.context c with service := q, headChecked := hc, hold := hd, shortfall := sf }) := by
  refine ⟨rfl, fun c' => ?_, fun c' => ?_, fun c' => ?_, List.prefix_refl _, List.prefix_refl _, fun u => Iff.rfl,
    fun f => .inl rfl⟩
  all_goals
    by_cases e : c = c'
    · subst e; simp [hq]
    · simp [State.context_setContext_of_ne _ e]

theorem State.popHead_serves (c : Ctx) : s.Serves (s.popHead c) :=
  s.setService_serves c _ (List.tail_suffix _) _ _ _

theorem State.finishHead_serves (c : Ctx) (why : Option HostReason) : s.Serves (s.finishHead c why) := by
  unfold State.finishHead
  split
  · exact .refl s
  · exact (s.answer_serves _ _).trans (State.popHead_serves _ _)

/-- What `head` gives is the slot that the first tag of the Service Queue names. -/
theorem State.head_eq {s : State} {c : Ctx} {t : HostTag} {x : HostSlot} (h : s.head c = some (t, x)) :
    (s.context c).service.head? = some t ∧ s.slot t = some x := by
  unfold State.head at h
  split at h
  · cases h
  · rename_i t' rest e
    cases hx : s.slot t' with
    | none => simp [hx] at h
    | some y => simp [hx] at h; obtain ⟨rfl, rfl⟩ := h; simp [e, hx]

theorem State.acceptHead_serves {c : Ctx} {t : HostTag} {x : HostSlot} (h : s.slot t = some x) (k : Nat) :
    s.Serves (s.acceptHead c t x k) := by
  refine ⟨rfl, fun c' => ?_, fun c' => ?_, fun c' => ?_, List.prefix_refl _, List.prefix_refl _, fun u => ?_,
    fun f => .inl rfl⟩
  · unfold State.acceptHead
    by_cases e : c = c'
    · subst e; simp
    · simp [State.context_setContext_of_ne _ e]
  · unfold State.acceptHead
    by_cases e : c = c'
    · subst e; simp
    · simp [State.context_setContext_of_ne _ e]
  · unfold State.acceptHead
    by_cases e : c = c'
    · subst e; simp
    · simp [State.context_setContext_of_ne _ e]
  · show (s.setSlot t _).slot u = none ↔ _
    rw [State.slot_setSlot]
    by_cases e : t = u
    · subst e; simp [h]
    · simp [e]

/-- Creating entries leaves all but the entries and the cursor of a context (R59). -/
theorem Context.createEntries_rest (d : Descriptor) (n : Nat) (x : Context) :
    x.createEntries d n = { x with cursor := (x.createEntries d n).cursor, entries := (x.createEntries d n).entries }
      ∧ x.entries <+: (x.createEntries d n).entries := by
  induction n generalizing x with
  | zero => exact ⟨rfl, List.prefix_refl _⟩
  | succ n ih =>
    unfold Context.createEntries
    split
    · exact ⟨rfl, List.prefix_refl _⟩
    · refine ⟨(ih _).1, List.IsPrefix.trans ?_ (ih _).2⟩
      exact List.prefix_append _ _

/-- Filling a context leaves all but its entries and its cursor (R59). -/
theorem State.fillContext_rest (c : Ctx) (x : Context) :
    s.fillContext c x = { x with cursor := (s.fillContext c x).cursor, entries := (s.fillContext c x).entries }
      ∧ x.entries <+: (s.fillContext c x).entries := by
  unfold State.fillContext
  split
  · split
    · exact Context.createEntries_rest _ _ _
    · exact ⟨rfl, List.prefix_refl _⟩
  · exact ⟨rfl, List.prefix_refl _⟩

/-- Creating the entries of one context serves (R59). -/
theorem State.fillAt_serves (c : Ctx) : s.Serves (s.fillAt c) := by
  refine ⟨rfl, fun c' => ?_, fun c' => ?_, fun c' => ?_, List.prefix_refl _, List.prefix_refl _, fun u => Iff.rfl,
    fun f => .inl rfl⟩
  all_goals
    unfold State.fillAt
    by_cases e : c = c'
    · subst e
      have h := s.fillContext_rest c (s.context c)
      generalize s.fillContext c (s.context c) = y at h
      simp only [State.context_setContext_self]
      first
        | exact h.1
        | exact h.2
        | rw [h.1]
    · simp [State.context_setContext_of_ne _ e]

theorem State.promoteN_serves (c : Ctx) (n : Nat) : s.Serves (State.promoteN c n s) := by
  induction n generalizing s with
  | zero => exact .refl s
  | succ n ih =>
    unfold State.promoteN
    split
    · rename_i d t x _ _ hh
      split
      · split
        · exact (s.finishHead_serves c _).trans (ih _)
        · exact .refl s
      · split
        · exact (s.finishHead_serves c _).trans (ih _)
        · exact (s.finishHead_serves c _).trans (ih _)
        · have ha := s.acceptHead_serves (c := c) (State.head_eq hh).2
          dsimp only
          split
          · exact (((ha _).trans (State.fillAt_serves _ c)).trans (State.finishHead_serves _ c _)).trans (ih _)
          · exact (ha _).trans (State.fillAt_serves _ c)
    · exact .refl s

/-- Head checks serve (R37, R107). -/
theorem State.promote_serves (c : Ctx) : s.Serves (s.promote c) := s.promoteN_serves c _

/-- Without a head there is nothing to check. -/
theorem State.head_nil {s : State} {c : Ctx} (h : (s.context c).service = []) : s.head c = none := by
  simp [State.head, h]

/-- Head checks do nothing while the Service Queue is empty. -/
theorem State.promote_of_empty {s : State} {c : Ctx} (h : (s.context c).service = []) : s.promote c = s := by
  unfold State.promote
  rw [State.promoteN, State.head_nil h]
  split
  · rename_i h₁; cases h₁
  · rfl

/-- Head checks do nothing in a context that is not ACTIVE (R37). -/
theorem State.promote_of_inactive {s : State} {c : Ctx} (h : (s.context c).state ≠ .active) : s.promote c = s := by
  unfold State.promote
  rw [State.promoteN]
  split
  · rename_i h₁ _ _; exact absurd h₁ h
  · rfl

/-- Head checks do nothing behind a checked head, while the link of the context is not BROKEN (R37, R107). -/
theorem State.promote_of_checked {s : State} {c : Ctx} (h : (s.context c).headChecked = true)
    (k : s.linkLost c = false) : s.promote c = s := by
  unfold State.promote
  rw [State.promoteN]
  split
  · simp [h, k]
  · rfl

/-- Answering a list of transactions serves. -/
theorem State.answers_serves (why : Option HostReason) (l : List HostTag) :
    s.Serves (l.foldl (fun s t => s.answer t why) s) := by
  induction l generalizing s with
  | nil => exact .refl s
  | cons t l ih => exact (s.answer_serves t why).trans (ih _)

/-- Answering a whole Service Queue serves (R36). -/
theorem State.answerAll_serves (c : Ctx) (why : HostReason) : s.Serves (s.answerAll c why) :=
  (s.answers_serves (some why) _).trans (State.setService_serves _ c [] (List.nil_suffix) _ _ _)

/-- After it the Service Queue is empty (R36). -/
@[simp] theorem State.answerAll_service (c : Ctx) (why : HostReason) : ((s.answerAll c why).context c).service = [] := by
  simp [State.answerAll]

/-! ### Link breaks (R106) -/

theorem State.breakLink_serves (c : Ctx) (why : Reason) (f : Ctx) : s.Serves (State.breakLink c why s f) := by
  unfold State.breakLink
  split
  · exact .refl s
  · rename_i l hl
    split
    · refine State.Serves.trans ?_ (State.promote_serves _ f)
      refine State.Serves.trans ?_ (State.post_serves _ _)
      refine ⟨rfl, fun c' => rfl, fun c' => List.suffix_refl _, fun c' => List.prefix_refl _, List.prefix_refl _,
        List.prefix_refl _, fun u => Iff.rfl, fun g => ?_⟩
      rw [State.pacing_setPacing]
      by_cases e : f = g
      · subst e; exact .inr ⟨l, hl, by simp⟩
      · simp [e]
    · exact .refl s

theorem State.breakLinksIn_serves (c : Ctx) (why : Reason) (l : List Ctx) :
    s.Serves (l.foldl (State.breakLink c why) s) := by
  induction l generalizing s with
  | nil => exact .refl s
  | cons f l ih => exact (s.breakLink_serves c why f).trans (ih _)

theorem State.breakLinks_serves (c : Ctx) (why : Reason) : s.Serves (s.breakLinks c why) :=
  s.breakLinksIn_serves c why _

/-- Serving keeps a link that is not ARMED as it is or BROKEN: it arms none. -/
theorem State.Serves.armed {s t : State} (h : s.Serves t) {f : Ctx} {l : PacingLink} (hl : t.pacing f = some l)
    (ha : l.state = .armed) : s.pacing f = some l := by
  rcases h.links f with e | ⟨m, _, e⟩
  · rw [← e, hl]
  · rw [e] at hl; obtain rfl := Option.some.inj hl; cases ha

/-- Breaking the link of `f` leaves no ARMED link of `f` that `c` leads. -/
theorem State.breakLink_broken (c : Ctx) (why : Reason) (f : Ctx) {l : PacingLink}
    (hl : (State.breakLink c why s f).pacing f = some l) (hc : l.leader = c) : l.state = .broken := by
  by_contra hb
  have ha : l.state = .armed := by cases h : l.state <;> simp_all
  have h₀ := (s.breakLink_serves c why f).armed hl ha
  unfold State.breakLink at hl
  rw [h₀] at hl
  dsimp only at hl
  rw [if_pos ⟨hc, ha⟩] at hl
  have := (State.promote_serves _ f).armed hl ha
  simp at this
  rw [← this] at ha
  cases ha

/-- After the break no link that `c` leads is ARMED (R106). -/
theorem State.breakLinks_broken (c : Ctx) (why : Reason) {f : Ctx} {l : PacingLink}
    (hl : (s.breakLinks c why).pacing f = some l) (hc : l.leader = c) : l.state = .broken := by
  have key : ∀ (fs : List Ctx) (s : State), f ∈ fs → (fs.foldl (State.breakLink c why) s).pacing f = some l →
      l.state = .broken := by
    intro fs
    induction fs with
    | nil => intro s h; cases h
    | cons g fs ih =>
      intro s hf hl
      by_cases hg : f ∈ fs
      · exact ih _ hg hl
      · obtain rfl : f = g := by simpa [hg] using hf
        by_contra hb
        have ha : l.state = .armed := by cases h : l.state <;> simp_all
        exact hb (State.breakLink_broken s c why f ((State.breakLinksIn_serves _ c why fs).armed hl ha) hc)
  refine key allCtx s ?_ hl
  fin_cases f <;> decide

/-! ### Detachment (R139) -/

@[simp] theorem State.detach_context (p : Origin → Bool) (b : Bool) (c : Ctx) :
    (s.detach p b).context c = s.context c := rfl

/-- Detachment sets flags only. -/
theorem State.detach_track (p : Origin → Bool) (b : Bool) (u : MemTag) :
    (s.detach p b).track u = (s.track u).map fun e =>
      if p e.origin && (b || e.state == .inFlight) then { e with detached := true } else e := by
  simp [State.detach, State.track, Vector.get_eq_getElem]

end Sys2Proof.Machine
end

