-- ==== Sys2Proof/Laws/Keeps.lean ====
section
/-! SUPPORT. What the operations on walks and memory leave alone: pins, link, settings, clock, descriptors,
apertures, the arbiter's pointer, the request channel, the attention mask and the queue of commands. -/

namespace Sys2Proof.Machine

open Sys2Proof

/-- From `s` to `t` only contexts, links, slots, responses, the FIFO, the Issue Queue, the tracker, the events, the
loss count and the count of free choices may have changed. -/
def State.Keeps (s t : State) : Prop :=
  t = { s with
    ctx := t.ctx, links := t.links, slots := t.slots, responses := t.responses, fifo := t.fifo, iq := t.iq,
    tracker := t.tracker, events := t.events, loss := t.loss, choices := t.choices }

theorem State.Keeps.refl (s : State) : s.Keeps s := rfl

theorem State.Keeps.trans {s t u : State} (h : s.Keeps t) (k : t.Keeps u) : s.Keeps u := by
  unfold State.Keeps at *; rw [k, h]

theorem State.Serves.keeps {s t : State} (h : s.Serves t) : s.Keeps t := by
  unfold State.Keeps; rw [h.rest]

theorem State.Resettled.keeps {s t : State} (h : s.Resettled t) : s.Keeps t := by
  unfold State.Keeps; rw [h.rest]

variable (s : State)

theorem State.settle_keeps : s.Keeps s.settle := s.settle_resettled.keeps

theorem State.post_keeps (e : EventRecord) : s.Keeps (s.post e) := (s.post_serves e).keeps

theorem State.setContext_keeps (c : Ctx) (x : Context) : s.Keeps (s.setContext c x) := rfl

theorem State.setTrack_keeps (m : MemTag) (x : Option TrackEntry) : s.Keeps (s.setTrack m x) := rfl

theorem State.setSlot_keeps (t : HostTag) (x : Option HostSlot) : s.Keeps (s.setSlot t x) := rfl

theorem State.detach_keeps (p : Origin → Bool) (b : Bool) : s.Keeps (s.detach p b) := rfl

theorem State.discardReadAhead_keeps (c : Ctx) : s.Keeps (s.discardReadAhead c) := rfl

theorem State.discardLines_keeps (c : Ctx) : s.Keeps (s.discardLines c) := rfl

theorem State.faultContext_keeps (c : Ctx) (why : FaultReason) : s.Keeps (s.faultContext c why) :=
  (s.answerAll_serves c .contextFaulted).keeps.trans
    ((State.setContext_keeps _ _ _).trans (State.breakLinks_serves _ _ _).keeps)

theorem State.rearm_keeps (c : Ctx) : s.Keeps (s.rearm c) := by
  unfold State.rearm; split
  · rfl
  · split <;> rfl

theorem State.launch_keeps (c : Ctx) (i : DescIx) : s.Keeps (s.launch c i) := by
  unfold State.launch; split
  · exact (s.setContext_keeps c _).trans ((State.rearm_keeps _ c).trans (State.promote_serves _ c).keeps)
  · exact (s.post_keeps _).trans (State.faultContext_keeps _ _ _)

theorem State.launchNext_keeps (c : Ctx) : s.Keeps (s.launchNext c) := by
  unfold State.launchNext; split
  · rfl
  · exact (s.setContext_keeps c _).trans (State.launch_keeps _ _ _)

theorem State.completeDrain_keeps (c : Ctx) : s.Keeps (s.completeDrain c) := by
  have h : ∀ b : Bool, s.Keeps (if b then s.post (s.walkDoneRecord c) else s) := by
    intro b; cases b
    · exact .refl s
    · exact s.post_keeps _
  unfold State.completeDrain
  dsimp only
  split
  · exact (h _).trans (State.launch_keeps _ _ _)
  · split
    · exact (h _).trans ((State.setContext_keeps _ _ _).trans (State.answerAll_serves _ _ _).keeps)
    · exact (h _).trans (State.launchNext_keeps _ _)

theorem State.drainIfDone_keeps (c : Ctx) : s.Keeps (s.drainIfDone c) := by
  unfold State.drainIfDone; split
  · exact s.completeDrain_keeps c
  · rfl

theorem State.endWalk_keeps (c : Ctx) (why : EndCause) : s.Keeps (s.endWalk c why) := by
  unfold State.endWalk
  dsimp only
  refine State.Keeps.trans ?_ (State.drainIfDone_keeps _ _)
  split <;> rfl

theorem State.abort_keeps (c : Ctx) (breaks purge : Bool) : s.Keeps (s.abort c breaks purge) := by
  unfold State.abort
  dsimp only
  refine State.Keeps.trans (t := ((s.discardLines c).detach (Origin.isWriteOf c) true).discardReadAhead c) rfl ?_
  refine State.Keeps.trans (State.answerAll_serves _ c .aborted).keeps ?_
  refine State.Keeps.trans ?_ (State.setContext_keeps _ c _)
  split
  · exact (State.breakLinks_serves _ _ _).keeps
  · rfl

theorem State.lineFailed_keeps (c : Ctx) (n : BitVec 16) (l : Nat) (b : Bool) (why : FaultReason) (r : Reason) :
    s.Keeps (s.lineFailed c n l b why r) := by
  have key : ∀ e : EventRecord, s.Keeps (if b then
      (((s.post e).discardLines c).detach (Origin.isWriteOf c) false).faultContext c why else s.post e) := by
    intro e
    cases b
    · exact s.post_keeps e
    · exact (s.post_keeps e).trans ((State.discardLines_keeps _ c).trans
        ((State.detach_keeps _ _ _).trans (State.faultContext_keeps _ c why)))
  exact key _

theorem State.readFailed_keeps (c : Ctx) (n : BitVec 16) (q : Nat) (r : Reason) : s.Keeps (s.readFailed c n q r) := by
  unfold State.readFailed; split
  · rfl
  · exact (s.setContext_keeps c _).trans (State.post_keeps _ _)

theorem State.finishEarly_keeps (c : Ctx) (why : HostReason) : s.Keeps (s.finishEarly c why) :=
  (s.finishHead_serves c _).keeps.trans (State.promote_serves _ c).keeps

end Sys2Proof.Machine
end

