-- ==== Sys2Proof/Laws/Link.lean ====
section
/-! SUPPORT. The intake of management commands: which command a byte completes, and what `State.command` answers. -/

namespace Sys2Proof.Machine

open Sys2Proof

/-- Command codes are distinct (Table 40). -/
@[simp] theorem Command.ofCode_code (k : Command) : Command.ofCode k.code = some k := by cases k <;> decide

/-- A code names the command that has it, and no other. -/
theorem Command.ofCode_eq_some {b : Byte} {k : Command} (h : Command.ofCode b = some k) : k.code = b := by
  have := List.find?_some h
  simpa using this

/-- A code that no command has names none. -/
theorem Command.ofCode_eq_none {b : Byte} (h : ∀ k : Command, k.code ≠ b) : Command.ofCode b = none := by
  cases h' : Command.ofCode b with
  | none => rfl
  | some k => exact absurd (Command.ofCode_eq_some h') (h k)

/-- The byte after the awaited parameters completes the command. -/
theorem Frame.awaits.completing {f : Frame} {k : Command} {ps : List Byte} (h : f.awaits k ps)
    (hk : k.paramLen = some (ps.length + 1)) (b : Byte) : f.completing b = some k := by
  obtain ⟨h₁, h₂, h₃⟩ := h
  simp [Frame.completing, h₁, h₂, h₃, hk]

/-- The parameters with which an awaited command acts. -/
theorem Frame.awaits.parameters {f : Frame} {k : Command} {ps : List Byte} (h : f.awaits k ps) (b : Byte) :
    f.parameters b = ps ++ [b] := by
  simp [Frame.parameters, h.1, h.2.2]

/-- In phase COMMAND the code of a command without parameters completes it. -/
theorem Frame.completing_code {f : Frame} {k : Command} (h : f.phase = .command) (hk : k.paramLen = some 0) :
    f.completing k.code = some k := by
  simp [Frame.completing, h, hk]

/-- In phase COMMAND a command acts with no parameters. -/
theorem Frame.parameters_command {f : Frame} (h : f.phase = .command) (b : Byte) : f.parameters b = [] := by
  simp [Frame.parameters, h]

/-- What `State.command` answers for an awaited command. -/
theorem State.command_awaited {s : State} {k : Command} {ps : List Byte} (h : s.link.awaits k ps)
    (hk : k.paramLen = some (ps.length + 1)) (b : Byte) (owner : List Byte → State → Reply) :
    s.command k b owner = { (owner (ps ++ [b]) s).state with
      link := s.link.answered b (owner (ps ++ [b]) s).status (owner (ps ++ [b]) s).bytes } := by
  simp [State.command, h.completing hk, h.parameters]

/-- What `State.command` answers for a command without parameters. -/
theorem State.command_code {s : State} {k : Command} (h : s.link.phase = .command) (hk : k.paramLen = some 0)
    (owner : List Byte → State → Reply) :
    s.command k k.code owner = { (owner [] s).state with
      link := s.link.answered k.code (owner [] s).status (owner [] s).bytes } := by
  simp [State.command, Frame.completing_code h hk, Frame.parameters_command h]

/-- An index in range names its entry. -/
theorem indexOf_val {n : Nat} (i : Fin n) : indexOf n i.val = some i := by simp [indexOf]

/-- A number equal to an index names that entry. -/
theorem indexOf_eq {n v : Nat} {i : Fin n} (h : i.val = v) : indexOf n v = some i := by subst h; exact indexOf_val i

/-- An index out of range names nothing. -/
theorem indexOf_out {n v : Nat} (h : n ≤ v) : indexOf n v = none := by simp [indexOf]; omega

/-- One byte, lowest first. -/
@[simp] theorem encodeLE_one (v : Nat) : encodeLE 1 v = [BitVec.ofNat 8 v] := by
  have : BitVec.ofNat 8 (v % 256) = BitVec.ofNat 8 v := by
    apply BitVec.eq_of_toNat_eq; simp
  simp [encodeLE, this]

/-- The number of bytes of a little-endian number. -/
@[simp] theorem encodeLE_length (n v : Nat) : (encodeLE n v).length = n := by
  induction n generalizing v with
  | zero => rfl
  | succ n ih => simp [encodeLE, ih]

end Sys2Proof.Machine
end

