-- ==== Sys2Proof/Tests/Slice0.lean ====
section
/-! SUPPORT. Tests: the checks of WellFormed on ill-formed commands, the spec's tables and examples on single commands,
and for every statement with hypotheses a state and operands that meet them. -/

namespace Sys2Proof.Tests

open Sys2Proof Sys2Proof.Machine

/-! ### Helpers -/

/-- The state after a command. -/
def after (i : Instr) (s : State) : State :=
  match exec i s with
  | .next t => t
  | _ => s

/-- A state whose frame has received command `k` and the parameters `ps`. -/
def awaiting (k : Command) (ps : List Byte) (s : State) : State :=
  { s with link := { Frame.idle with phase := .parameters, count := 2 + ps.length, code := some k.code, params := ps } }

/-- A state whose frame is in phase COMMAND. -/
def inCommand (s : State) : State := { s with link := { Frame.idle with phase := .command, count := 1 } }

/-- A host request. -/
def request (kind : Kind) (address : BitVec 32) (beats size : Nat) (tag : HostTag) : HostRequest :=
  match kind with
  | .read => { kind, address, beats, size, tag, data := [], strobes := [] }
  | .write => { kind, address, beats, size, tag, data := List.replicate (4 * beats) 0x5A,
                strobes := List.replicate (4 * beats) true }

/-- A read walk of 4 words from 0x1000. -/
def readDesc : Descriptor :=
  { Descriptor.cleared with
    base := 0x1000, levels := 1, count := #v[4, 0, 0, 0], stride := #v[4, 0, 0, 0], memWidth := 4, hostSize := 4
    marks := 0x01808F }

/-- A write walk of 4 words from 0x1000. -/
def writeDesc : Descriptor := { readDesc with direction := .write }

/-- An aperture of 4 KiB at 0x40000000, bound to context 0. -/
def aperture0 : Aperture := { base := 0x40000000, sizeExp := 12, context := 0, enabled := true }

/-- Context 0 ACTIVE from a descriptor, at its first element. -/
def running (d : Descriptor) : Context :=
  { Context.reset with state := .active, snapshot := some d, descIndex := some 5, region := some d.region, serial := 1 }

/-- The state after reset with aperture 0 enabled and context 0 as given. -/
def withCtx (x : Context) : State := (State.reset.setContext 0 x).setAperture 0 aperture0

/-- A read of two words through the aperture, on tag 3. -/
def read2 : HostRequest := request .read 0x40000000 2 4 3

/-- A write of two words through the aperture, on tag 3. -/
def write2 : HostRequest := request .write 0x40000000 2 4 3

/-- The slot of a checked head that has taken nothing. -/
def headSlot (r : HostRequest) (n : Nat) : HostSlot := { r.newSlot with cls := some (.walk 0), count := some n }

/-- A read-ahead entry of the walk of `readDesc`. -/
def entry (seq : Nat) (st : EntryState) : Entry :=
  { seq, addr := 0x1000 + 4 * seq, span := ⟨0x1000 + 4 * seq, 1⟩, ordinal := seq, state := st }

/-- An OPEN gather line at 0x1000 with one valid word. -/
def line : GatherLine :=
  { slot := 0, addr := 0x1000, valid := 0xF, data := Vector.replicate 32 7, state := .opened, openedAt := 0 }

/-- A read walk whose head has taken nothing of two elements, with one FILLED entry. -/
def reading : State :=
  (withCtx { running readDesc with
    service := [3], headChecked := true, cursor := .at #v[1, 0, 0, 0],
    entries := [entry 0 (.filled #v[1, 2, 3, 4])] }).setSlot 3 (some (headSlot read2 2))

/-- A write walk whose head has taken nothing of two elements. -/
def writing : State :=
  (withCtx { running writeDesc with service := [3], headChecked := true }).setSlot 3 (some (headSlot write2 2))

/-- The element that `reading` waits to take. -/
def readTaking : Taking := { d := readDesc, pos := #v[0, 0, 0, 0], tag := 3, head := headSlot read2 2 }

/-- The element that `writing` waits to take. -/
def writeTaking : Taking := { d := writeDesc, pos := #v[0, 0, 0, 0], tag := 3, head := headSlot write2 2 }

/-! ### WellFormed refuses what cannot occur -/

theorem test_wf_request_no_beat : (Instr.hostRequestArrival (request .read 0 0 4 0)).wf = false := by decide

theorem test_wf_request_17_beats : (Instr.hostRequestArrival (request .read 0 17 4 0)).wf = false := by decide

theorem test_wf_request_size_3 : (Instr.hostRequestArrival (request .read 0 1 3 0)).wf = false := by decide

theorem test_wf_read_with_data :
    (Instr.hostRequestArrival { request .read 0 1 4 0 with data := [0] }).wf = false := by decide

theorem test_wf_write_short_data :
    (Instr.hostRequestArrival { request .write 0 1 4 0 with data := [0, 0, 0] }).wf = false := by decide

theorem test_wf_write_short_strobes :
    (Instr.hostRequestArrival { request .write 0 1 4 0 with strobes := [true] }).wf = false := by decide

theorem test_wf_response_part_beat : (Instr.memoryResponse 0 .okay [0, 0, 0]).wf = false := by decide

theorem test_wf_response_17_beats : (Instr.memoryResponse 0 .okay (List.replicate 68 0)).wf = false := by decide

theorem test_wf_line_not_multiple : (Instr.gatherAgeExpiry 0 0x1004).wf = false := by decide

theorem test_wf_known_code : (Instr.unknownCommand 0x7E).wf = false := by decide

theorem test_wf_accepts :
    (Instr.hostRequestArrival write2).wf = true ∧ (Instr.gatherAgeExpiry 0 0x1020).wf = true
      ∧ (Instr.unknownCommand 0x7F).wf = true := by decide

/-! ### Element conversion (Tables 11 to 15) -/

theorem test_widen_sign : convertWidth .sign 3 4 0x800000 = 0xFF800000 := by decide

theorem test_narrow_sat_signed_low : convertWidth .satSigned 4 2 0xFFFF7FFF = 0x8000 := by decide

theorem test_narrow_sat_signed_high : convertWidth .satSigned 4 2 0x0000F000 = 0x7FFF := by decide

theorem test_narrow_sat_unsigned : convertWidth .satUnsigned 2 1 0xFE00 = 0xFF := by decide

theorem test_narrow_zero : convertWidth .zero 2 1 0xFE00 = 0 := by decide

/-- Table 13, last row: Wm 3, Wh 2, SAT_SIGNED, lanes 0 and 1 of 0xFF8001 give 0x7FFF. -/
theorem test_lane_mask_read :
    { readDesc with memWidth := 3, hostSize := 2, conversion := .satSigned, laneMask := 3 }.hostBytes
      #v[0x01, 0x80, 0xFF, 0] = [0xFF, 0x7F] := by decide

/-- Table 15, SIGN with lanes 0 and 1: bytes 0x01 and 0x80 only. -/
theorem test_lane_mask_write :
    { writeDesc with hostSize := 2, conversion := .sign, laneMask := 3 }.memoryBytes 0x100 [0x01, 0x80]
      = [(0x100, 0x01), (0x101, 0x80)] := by decide

/-! ### One command at a time -/

/-- R22, R161: what hardware reset leaves. -/
theorem test_hardwareReset :
    (after .hardwareReset writing).ctx = State.reset.ctx ∧ (after .hardwareReset writing).rstLow = true := by decide

/-- R152: strap 2 gives link address 0xA6. -/
theorem test_rstRise : (after (.rstRise 2) (after .hardwareReset State.reset)).linkAddress = 0xA6 := by decide

/-- R162: the Timebase wraps. -/
theorem test_timebaseTick : (after .timebaseTick { State.reset with timebase := 0xFFFFFFFF }).timebase = 0 := by decide

/-- R35: a walk access to an IDLE context is answered NO_WALK. -/
theorem test_arrival_no_walk :
    (after (.hostRequestArrival read2) (withCtx .reset)).events.map (·.reason) = [some .noWalk] := by decide

/-- R114: 16 beats at 0xFFFFFFC4 are malformed. -/
theorem test_arrival_malformed :
    (after (.hostRequestArrival (request .read 0xFFFFFFC4 16 4 0)) State.reset).events.map (·.reason)
      = [some .malformed] := by decide

/-- R116: the sent response frees its tag. -/
theorem test_hostResponseSent :
    let s := after .hostResponseSent (after (.hostRequestArrival read2) (withCtx .reset))
    s.slot 3 = none ∧ s.responses = [] := by decide

/-- R49: the element's bytes stand at the head's first slot. -/
theorem test_elementTake_read :
    ((after (.elementTake 0) reading).slot 3).map (·.readData) = some [1, 2, 3, 4, 0, 0, 0, 0]
      ∧ ((after (.elementTake 0) reading).context 0).progress = 1 := by decide

/-- R77: the element opens the line of its bytes. -/
theorem test_elementTake_write :
    ((after (.elementTake 0) writing).context 0).lines.map (fun l => (l.addr, l.valid)) = [(0x1000, 0xF)] := by decide

/-- R30: a drained context without another walk is IDLE. -/
theorem test_drainComplete :
    ((after (.drainComplete 0) (withCtx { running writeDesc with state := .draining })).context 0).state = .idle := by
  decide

/-- A passthrough write that waits in the FIFO. -/
def passing : State :=
  after (.hostRequestArrival (request .write 0x2000 1 4 2)) State.reset

/-- R126: the admitted request stands in the Issue Queue, and the pointer at position 1. -/
theorem test_passthroughAdmission :
    ((after .passthroughAdmission passing).iq.map (·.origin), (after .passthroughAdmission passing).pointer)
      = ([.host 2], 1) := by decide

/-- R62: the candidate's entry becomes REQUESTED. -/
theorem test_readAheadAdmission :
    ((after (.readAheadAdmission 0) (withCtx { running readDesc with entries := [entry 0 .pending] })).context 0
      ).entries.head?.map (·.state) = some .requested := by decide

/-- A context with one ISSUING line. -/
def issuingLine : State :=
  withCtx { running writeDesc with lines := [line.issue], issuing := [0] }

/-- R86: one WRITE of the line's write range, and the line is gone. -/
theorem test_gatherLineAdmission :
    let s := after (.gatherLineAdmission 0) issuingLine
    (s.iq.map (·.span), (s.context 0).lines) = ([⟨0x1000, 1⟩], []) := by decide

/-- R138: the lowest free tag. -/
theorem test_issue :
    let s := after .issue (after .passthroughAdmission passing)
    (s.channel.map (·.tag), s.iq) = (some 0, []) := by decide

/-- R132: the channel is free. -/
theorem test_memoryRequestTaken :
    (after .memoryRequestTaken (after .issue (after .passthroughAdmission passing))).channel = none := by decide

/-- The passthrough write in flight on tag 0. -/
def inFlight : State := { passing with fifo := [] }.setTrack 0 (some
  { kind := .write, span := ⟨0x2000, 1⟩, origin := .host 2, detached := false, state := .inFlight, sent := 0 })

/-- R127: memory's answer is the host's. -/
theorem test_memoryResponse_fault :
    (after (.memoryResponse 0 .fault []) inFlight).events.map (·.reason) = [some .memory] := by decide

/-- R144: a response on a free tag. -/
theorem test_memoryResponse_stray :
    (after (.memoryResponse 9 .okay []) State.reset).events.map (·.kind) = [.strayResponse] := by decide

/-- R145: 2001 microseconds exceed MEM_TIMEOUT_US 2000. -/
theorem test_memoryTimeout :
    ((after (.memoryTimeout 0) { inFlight with timebase := 2001 }).track 0).map (·.state) = some .quarantined
      ∧ ((after (.memoryTimeout 0) { inFlight with timebase := 2000 }).track 0).map (·.state) = some .inFlight := by
  decide

/-- R80: age 64 reaches GATHER_AGE_US 64. -/
theorem test_gatherAgeExpiry :
    let s := withCtx { running writeDesc with lines := [line] }
    ((after (.gatherAgeExpiry 0 0x1000) { s with timebase := 64 }).context 0).issuing = [0]
      ∧ ((after (.gatherAgeExpiry 0 0x1000) { s with timebase := 63 }).context 0).issuing = [] := by decide

/-- A head held PACE since time 0. -/
def paced : State :=
  (writing.setContext 0 { writing.context 0 with hold := .pace }).setPacing 0
    (some { leader := 1, gap := 0, lead := none, state := .armed })

/-- R105: 50001 microseconds exceed PACE_LIMIT_US 50000. -/
theorem test_paceTimeout :
    (after (.paceTimeout 0) { paced with timebase := 50001 }).events.map (·.reason) = [some .paceTimeout]
      ∧ (after (.paceTimeout 0) { paced with timebase := 50000 }).events = [] := by decide

/-- R156: the record is emptied. -/
theorem test_frameEnd : (after .frameEnd (inCommand State.reset)).link = Frame.idle := by decide

/-- R154: status UNKNOWN_COMMAND, code 0x02. -/
theorem test_unknownCommand : (after (.unknownCommand 0x7F) (inCommand State.reset)).link.response = [2] := by decide

/-- R160, Table 44. -/
theorem test_identify :
    (after .identify (inCommand { State.reset with strap := 1 })).link.response
      = [1, 0x08, 0x24, 8, 64, 8, 1, 0xA5] := by decide

/-- 9.3.1: a frame that writes BASE and LEVELS and is cut in the value of COUNT_0. -/
def cutWrite : List Byte := [12, 3, 0x02, 0x00, 0x10, 0x00, 0x20, 0x03, 3, 0x10, 4]

/-- 9.3.1: two pairs stand; COUNT_0 is unwritten. -/
theorem test_linkByteComplete :
    let s := after .frameEnd (cutWrite.foldl (fun s b => after (.linkByteComplete b) s) (awaiting .writeDesc [] State.reset))
    ((s.desc 12).base, (s.desc 12).levels, (s.desc 12).count.get 0, (s.desc 12).marks) = (0x20001000, 3, 0, 6) := by
  decide

/-- A WRITE_DESC frame that has received index 12, pair count 2, BASE and the identifier of LEVELS. -/
def atLevels : State :=
  { awaiting .writeDesc [12, 2, 2, 0, 0, 0, 0, 3] State.reset with
    link := { (awaiting .writeDesc [12, 2, 2, 0, 0, 0, 0, 3] State.reset).link with
      desc := some 12, pairs := some 2, applied := 1, field := some .levels } }

/-- 9.3.1: LEVELS = 5 is refused as pair 2. -/
theorem test_writeDesc_refused : (after (.writeDesc 5) atLevels).link.response = [4, 2] := by decide

/-- R153, R157: the last pair completes the command; the record counts two pairs applied and holds none. -/
theorem test_writeDesc_done :
    let s := after (.writeDesc 4) atLevels
    (s.link.response, s.link.applied, s.link.field, s.link.value, (s.desc 12).levels) = ([1, 2], 2, none, [], 4) := by
  decide

/-- R7: LANE_MASK of a cleared record reads 0x0F at reply byte 45, after the status byte (Table 42); index 64 is
refused. -/
theorem test_readDesc :
    let r := (after (.readDesc 63) (awaiting .readDesc [] State.reset)).link.response
    (r.length, r[1 + 45]?, (after (.readDesc 64) (awaiting .readDesc [] State.reset)).link.response)
      = (55, some 0x0F, [3]) := by decide

/-- R6. -/
theorem test_clearDesc :
    (after (.clearDesc 5) (awaiting .clearDesc [] (State.reset.setDesc 5 readDesc))).desc 5 = .cleared := by decide

/-- The parameters of SET_APERTURE but the last: index 1, 0x40000000, 2^12, context 0. -/
def apertureParams : List Byte := [1, 0, 0, 0, 0x40, 12, 0]

/-- R119: check 4, OVERLAP; with ENABLED 0 nothing is compared. -/
theorem test_setAperture :
    (after (.setAperture 1) (awaiting .setAperture apertureParams (withCtx .reset))).link.response = [6]
      ∧ ((after (.setAperture 0) (awaiting .setAperture apertureParams (withCtx .reset))).aperture 1).base
        = 0x40000000 := by decide

/-- R121, Table 40. -/
theorem test_readAperture :
    (after (.readAperture 0) (awaiting .readAperture [] (withCtx .reset))).link.response
      = [1, 0, 0, 0, 0x40, 12, 0, 1] := by decide

/-- R23: the walk starts with serial 1. -/
theorem test_queueWalk :
    let s := after (.queueWalk 5) (awaiting .queueWalk [0] (State.reset.setDesc 5 writeDesc))
    ((s.context 0).state, (s.context 0).serial, s.link.response) = (.active, 1, [1]) := by decide

/-- R24: an unwritten record is refused UNWRITTEN at launch, with status OK. -/
theorem test_queueWalk_refused :
    let s := after (.queueWalk 5) (awaiting .queueWalk [0] State.reset)
    ((s.context 0).state, s.link.response, s.events.map (·.reason)) = (.faulted, [1], [some .unwritten]) := by decide

/-- R31: STATE unless ACTIVE. -/
theorem test_endWalk :
    (after (.endWalk 0) (awaiting .endWalk [] State.reset)).link.response = [0x0A]
      ∧ ((after (.endWalk 0) (awaiting .endWalk [] (withCtx (running readDesc)))).context 0).endCause
        = some .ended := by decide

/-- R28, R39, R104: a head held PACE passes hold NEXT when END_WALK, the drain and the queued launch share one event, so
its hold starts anew. -/
theorem test_endWalk_relaunch :
    let s := (paced.setContext 0 { paced.context 0 with launchQ := [6] }).setDesc 6 writeDesc
    let x := (after (.endWalk 0) (awaiting .endWalk [] { s with timebase := 100 })).context 0
    (x.state, x.serial, x.hold, x.holdStart) = (.active, 2, .pace, 100) := by decide

/-- R32, R178: the context is checked before the purge flag. -/
theorem test_abortWalk_badIndex :
    (after (.abortWalk 2) (awaiting .abortWalk [8] State.reset)).link.response = [3] := by decide

/-- R32: the reply counts the lines discarded; the head is answered ABORTED. -/
theorem test_abortWalk :
    let s := awaiting .abortWalk [0]
      (writing.setContext 0 { writing.context 0 with lines := [line] })
    (after (.abortWalk 1) s).link.response = [1, 1]
      ∧ (after (.abortWalk 1) s).events.map (·.reason) = [some .aborted] := by decide

/-- R33. -/
theorem test_clearFault :
    ((after (.clearFault 0) (awaiting .clearFault []
      (withCtx { Context.reset with state := .faulted }))).context 0).state = .idle := by decide

/-- R81. -/
theorem test_flushLines :
    let s := after (.flushLines 0) (awaiting .flushLines [] (withCtx { running writeDesc with lines := [line] }))
    (s.link.response, (s.context 0).issuing) = ([1, 1], [0]) := by decide

/-- R43, Table 43: state ACTIVE, descriptor 5, serial 1, direction WRITE. -/
theorem test_readContext :
    (after (.readContext 0) (awaiting .readContext [] writing)).link.response.take 6 = [1, 1, 5, 1, 0, 1] := by decide

/-- R96: a link to itself is LOOP; LEAD_LIMIT equal to GAP is LIMIT. -/
theorem test_setPacing :
    (after (.setPacing 0) (awaiting .setPacing [0, 0, 0, 0, 0] State.reset)).link.response = [8]
      ∧ (after (.setPacing 0) (awaiting .setPacing [0, 1, 2, 0, 2] State.reset)).link.response = [9] := by decide

/-- R58, R59, R107: behind a head answered LEADER_LOST, the next head passes its check with a demand of 2 and is answered
in its turn; the entries for its demand stay. -/
theorem test_setPacing_lost :
    let s := (((withCtx { running { readDesc with readAhead := 0 } with service := [3, 4], headChecked := true }).setContext 1
      { Context.reset with state := .faulted }).setSlot 3 (some (headSlot read2 1))).setSlot 4
        (some { read2.newSlot with cls := some (.walk 0) })
    let t := after (.setPacing 0) (awaiting .setPacing [0, 1, 0, 0, 0] s)
    (t.responses, (t.context 0).service, (t.context 0).entries.map (·.addr)) = ([3, 4], [], [0x1000, 0x1004]) := by
  decide

/-- R98. -/
theorem test_clearPacing : (after (.clearPacing 0) (awaiting .clearPacing [] paced)).link.response = [1, 1] := by decide

/-- R99, Table 44: present, leader 1, ARMED. -/
theorem test_readPacing :
    (after (.readPacing 0) (awaiting .readPacing [] paced)).link.response.take 9 = [1, 1, 1, 0, 0, 0, 0, 1, 0] := by
  decide

/-- R163: CLOCK_MHZ 24 is refused, 25 accepted. -/
theorem test_setTimers :
    (after (.setTimers 0) (awaiting .setTimers [24, 0xD0, 7, 0x50, 0xC3, 0, 64] State.reset)).link.response = [4]
      ∧ (after (.setTimers 0) (awaiting .setTimers [25, 0xD0, 7, 0x50, 0xC3, 0, 64] State.reset)).settings
        = { Settings.reset with clockMhz := 25 } := by decide

/-- R163: PACE_LIMIT_US set from 0 to 50 is compared in the same event with a head held for 100. -/
theorem test_setTimers_fromZero :
    let s := { paced with timebase := 100, settings := { Settings.reset with paceLimitUs := 0 } }
    (after (.setTimers 0) (awaiting .setTimers [100, 0xD0, 7, 50, 0, 0, 64] s)).events.map (·.reason)
      = [some .paceTimeout] := by decide

/-- R161, R164: the settings after reset, then the Timebase. -/
theorem test_readTimers :
    (after .readTimers (inCommand State.reset)).link.response = [1, 100, 0xD0, 7, 0x50, 0xC3, 0, 64, 0, 0, 0, 0, 0] := by
  decide

/-- 10.6: 32 MARK records and loss count 2. -/
def fullQueue : State :=
  { State.reset with events := List.replicate 32 { kind := .mark, timestamp := 7000 }, loss := 2, timebase := 7021 }

/-- 10.6 at 7021: EVENTS_LOST with value 2 fills the freed slot. -/
theorem test_popEvent :
    let s := after .popEvent (inCommand fullQueue)
    (s.events.getLast?.map fun e => (e.kind, e.timestamp, e.value)) = some (.eventsLost, 7021, some 2)
      ∧ s.events.length = 32 ∧ s.loss = 0 := by decide

/-- R171: EMPTY on an empty queue. -/
theorem test_peekEvent :
    (after .peekEvent (inCommand State.reset)).link.response = [0x0B]
      ∧ (after .peekEvent (inCommand fullQueue)).events.length = 32 := by decide

/-- R172. -/
theorem test_readEventStatus :
    (after .readEventStatus (inCommand fullQueue)).link.response = [1, 32, 32, 2, 0, 0xFF, 0x3F, 1] := by decide

/-- 10.6: with MARK disabled ATTN# is released; bit 14 is refused. -/
theorem test_setAttentionMask :
    (after (.setAttentionMask 0x3F) (awaiting .setAttentionMask [0xFD] fullQueue)).attnLow = false
      ∧ (after (.setAttentionMask 0x40) (awaiting .setAttentionMask [0] fullQueue)).link.response = [4] := by decide

/-- R165: the reply counts one line. -/
theorem test_softReset :
    let s := after .softReset (inCommand (withCtx { running writeDesc with lines := [line] }))
    s.link.response = [1, 1] ∧ (s.context 0).state = .idle ∧ s.events.map (·.kind) = [.softResetDone] := by decide

/-- R153: a fall of MSEL# begins a frame; not while RST# is low. -/
theorem test_frameBegin :
    (after .frameBegin State.reset).link.phase = .address
      ∧ (after .frameBegin (after .hardwareReset State.reset)).link.phase = .idle := by decide

/-! ### The statements' hypotheses can be met -/

/-- The law of apertures from what can be decided. -/
theorem apertureLaw_of {s : State}
    (h : ∀ i j : ApIx, i ≠ j → (s.aperture i).enabled = true → (s.aperture j).enabled = true →
      (s.aperture i).range.meets (s.aperture j).range = false)
    (k : ∀ (i : ApIx) (c : Ctx), (s.aperture i).enabled = true →
      (s.context c).region.all (fun q => !(s.aperture i).range.meets q) = true) : s.ApertureLaw :=
  ⟨h, fun i c q hi _ hq => by simpa [hq] using k i c hi⟩

/-- StrapTimebaseAndResetGate. -/
theorem test_meets_resetGate : State.reset.rstLow = false ∧ (after .hardwareReset State.reset).rstLow = true := by decide

/-- A slot held on tag 3, answered. -/
def answered : State := after (.hostRequestArrival read2) (withCtx .reset)

/-- TagIsHeldUntilResponseSent. -/
theorem test_meets_tagIsHeld :
    answered.rstLow = false ∧ (answered.slot read2.tag).isSome = true ∧ answered.responses = [3]
      ∧ exec .hostResponseSent passing = .next (after .hostResponseSent passing) ∧ (passing.slot 2).isSome = true
      ∧ passing.responses.head? ≠ some 2 := ⟨by decide, by decide, by decide, rfl, by decide, by decide⟩

/-- AnswerIsGivenOnceAndReported: an OPEN walk access, an OPEN passthrough request, an ANSWERED slot. -/
theorem test_meets_answer :
    (reading.slot 3).any (fun x => x.answer.isNone && x.cls == some (.walk 0)) = true
      ∧ (passing.slot 2).any (fun x => x.answer.isNone && x.cls == some .passthrough) = true
      ∧ (answered.slot 3).any (fun x => x.answer.isSome) = true := by decide

/-- MalformedRequestIsAnswered: each way to be malformed, and well-formed requests at the end of the address space. -/
theorem test_meets_malformed :
    let multi := request .read 0x1002 2 4 0
    let single := request .read 0x1002 1 4 0
    let past := request .read 0xFFFFFFC4 16 4 0
    multi.wf ∧ (1 < multi.beats ∧ multi.address.toNat % 4 ≠ 0)
      ∧ single.wf ∧ (single.beats = 1 ∧ single.address.toNat % single.size ≠ 0)
      ∧ past.wf ∧ 0xFFFFFFFF < past.range.hi
      ∧ (request .read 0xFFFFFFC0 16 4 0).malformed = false ∧ (request .read 0xFFFFFFFF 1 1 0).malformed = false
      ∧ State.reset.rstLow = false ∧ State.reset.slot 0 = none := by decide

/-- SpanAndPassthroughArrival: one byte short of the aperture, across its end, and far from it. -/
theorem test_meets_span :
    let s := withCtx .reset
    let r := request .read 0x3FFFFFFC 2 4 0
    let q := request .read 0x40000FFC 2 4 0
    let p := request .read 0x3FFFFFFC 1 4 0
    s.rstLow = false ∧ s.slot 0 = none
      ∧ (r.wf ∧ r.malformed = false ∧ (∃ i, (s.aperture i).enabled = true ∧ r.range.meets (s.aperture i).range = true)
        ∧ ∀ i, (s.aperture i).enabled = true → r.range.inside (s.aperture i).range = false)
      ∧ (q.wf ∧ q.malformed = false ∧ (∃ i, (s.aperture i).enabled = true ∧ q.range.meets (s.aperture i).range = true)
        ∧ ∀ i, (s.aperture i).enabled = true → q.range.inside (s.aperture i).range = false)
      ∧ p.wf ∧ p.malformed = false
      ∧ ∀ i, (s.aperture i).enabled = true → p.range.meets (s.aperture i).range = false := by decide

/-- WalkAccessFollowsContextState: the four context states, with the first and the last bytes of the aperture. -/
theorem test_meets_walkAccess :
    let busy := withCtx { running readDesc with service := [3], headChecked := true }
    let r := request .read 0x40000000 1 4 0
    let q := request .read 0x40000FFC 1 4 0
    (withCtx .reset).ApertureLaw ∧ (withCtx { Context.reset with state := .faulted }).ApertureLaw
      ∧ (withCtx { running readDesc with state := .draining }).ApertureLaw ∧ busy.ApertureLaw
      ∧ (busy.context 0).state = .active ∧ (busy.context 0).service ≠ [] ∧ (busy.context 0).headChecked = true
      ∧ busy.linkLost 0 = false ∧ busy.rstLow = false ∧ busy.slot 0 = none ∧ (busy.aperture 0).enabled = true
      ∧ (busy.aperture 0).context = 0
      ∧ r.wf ∧ r.malformed = false ∧ r.range.inside (busy.aperture 0).range = true
      ∧ q.wf ∧ q.malformed = false ∧ q.range.inside (busy.aperture 0).range = true :=
  ⟨apertureLaw_of (by decide) (by decide), apertureLaw_of (by decide) (by decide),
    apertureLaw_of (by decide) (by decide), apertureLaw_of (by decide) (by decide), by decide⟩

/-- HeadCheckOnArrival: a request of each outcome for a read walk and a write walk. -/
theorem test_meets_headCheck :
    let s := withCtx (running readDesc)
    let w := withCtx (running writeDesc)
    let one (l : List Bool) : HostRequest := { request .write 0x40000000 1 4 3 with strobes := l }
    s.rstLow = false ∧ s.slot 3 = none ∧ s.classify read2 = .walk 0 ∧ (s.context 0).state = .active
      ∧ (s.context 0).service = [] ∧ (s.context 0).headChecked = false ∧ (s.context 0).snapshot = some readDesc
      ∧ s.linkLost 0 = false ∧ readDesc.hostSize = 4
      ∧ write2.wf ∧ write2.malformed = false ∧ s.classify write2 = .walk 0 ∧ write2.kind ≠ readDesc.direction
      ∧ read2.wf ∧ read2.malformed = false ∧ read2.kind = readDesc.direction ∧ read2.address.toNat % 4 = 0
      ∧ read2.length % 4 = 0
      ∧ (request .read 0x40000000 1 2 3).wf ∧ (request .read 0x40000000 1 2 3).length % 4 ≠ 0
      ∧ (s.setPacing 0 (some { leader := 1, gap := 0, lead := none, state := .broken })).linkLost 0 = true
      ∧ w.linkLost 0 = false ∧ w.classify (one [true, true, true, true]) = .walk 0
      ∧ (one [true, false, true, true]).wf ∧ (one [false, false, false, false]).wf := by decide

/-- ElementIsTakenOrHeld, TakenElementAdvancesWalk, TakenReadElementIsPlaced: a FILLED and a POISONED oldest entry. -/
theorem test_meets_takenRead :
    let poisoned := reading.setContext 0 { reading.context 0 with entries := [entry 0 .poisoned] }
    reading.nextElement 0 = some readTaking ∧ reading.mayTake 0 readTaking = true
      ∧ readTaking.d.direction = .read ∧ readTaking.d.advance readTaking.pos = (.at #v[1, 0, 0, 0], false)
      ∧ (reading.context 0).progress + 1 ≠ 2 ^ 48 - 1 ∧ readTaking.head.count = some 2
      ∧ readTaking.head.taken + 1 < 2 ∧ (reading.context 0).entries = [entry 0 (.filled #v[1, 2, 3, 4])]
      ∧ poisoned.nextElement 0 = some readTaking ∧ poisoned.mayTake 0 readTaking = true := by decide

/-- TakenReadElementIsPlaced: the second element of two, at slot 1. -/
theorem test_meets_place :
    let k : Taking := { readTaking with head := { headSlot read2 2 with taken := 1 } }
    k.head.req.kind = .read ∧ k.head.req.address.toNat % k.d.hostSize = 0 ∧ k.head.req.length % k.d.hostSize = 0
      ∧ k.head.taken < k.head.req.length / k.d.hostSize ∧ k.place = 4 := by decide

/-- The same for an endless walk that wraps. -/
theorem test_meets_wrap :
    let d := { readDesc with endless := true }
    d.advance #v[3, 0, 0, 0] = (.at #v[0, 0, 0, 0], true) := by decide

/-- TakenWriteElementIsMerged, and the element that MARK names. -/
theorem test_meets_takenWrite :
    writing.nextElement 0 = some writeTaking ∧ writing.mayTake 0 writeTaking = true
      ∧ writeTaking.d.direction = .write ∧ writeTaking.bytes.map (·.1) = [0x1000, 0x1001, 0x1002, 0x1003]
      ∧ writeTaking.d.advance writeTaking.pos = (.at #v[1, 0, 0, 0], false)
      ∧ (writing.context 0).progress + 1 ≠ 2 ^ 48 - 1 := by decide

/-- TakenWriteElementIsMerged: behind a skipped slot the next element is slot 1. -/
theorem test_meets_slot :
    let r := { write2 with strobes := [false, false, false, false, true, true, true, true] }
    let k : Taking := { writeTaking with head := headSlot r 1 }
    let full (i : Nat) : Bool := (List.range 4).all fun j => r.strobes.getD (i * 4 + j) false
    k.d.memWidth = 4 ∧ r.kind = .write ∧ r.address.toNat % 4 = 0 ∧ r.length / 4 = 2 ∧ full 0 = false ∧ full 1 = true
      ∧ (List.range 1).countP full = k.head.taken ∧ r.data[1 * 4 + 3]? = ([0x5A, 0x5A, 0x5A, 0x5A] : List Byte)[3]? := by
  decide

/-- TakenWriteElementIsMerged, log entry 15: the element at 0x1010 makes the line's range reach from 0x1000 to 0x1013,
and a FILLED entry over the gap at 0x1008 is marked. -/
theorem test_meets_gap :
    let s := (writing.setContext 0 { writing.context 0 with take := .at #v[4, 0, 0, 0], lines := [line] }).setContext 1
      { running readDesc with entries := [entry 2 (.filled #v[1, 2, 3, 4])] }
    ((after (.elementTake 0) s).context 1).entries.head?.map (·.state) = some .pending
      ∧ ((after (.elementTake 0) s).context 0).lines.map (·.span) = [⟨0x1000, 5⟩] := by decide

/-- CompletedHeadIsAnswered: one element left of one, FILLED or POISONED. -/
theorem test_meets_completedHead :
    let s := reading.setSlot 3 (some (headSlot read2 1))
    let k : Taking := { readTaking with head := headSlot read2 1 }
    let p := s.setContext 0 { s.context 0 with entries := [entry 0 .poisoned] }
    s.nextElement 0 = some k ∧ s.mayTake 0 k = true ∧ k.head.count = some (k.head.taken + 1) ∧ k.head.answer = none
      ∧ k.d.advance k.pos = (.at #v[1, 0, 0, 0], false) ∧ (s.context 0).progress + 1 ≠ 2 ^ 48 - 1
      ∧ p.nextElement 0 = some k ∧ p.mayTake 0 k = true := by decide

/-- A context that leads `writing`'s walk at progress 0, with the given link. -/
def following (l : PacingLink) : State := writing.setPacing 0 (some l)

/-- ElementIsTakenOrHeld: held at each step. -/
theorem test_meets_held :
    let pace := following { leader := 1, gap := 0, lead := none, state := .armed }
    let lead := (writing.setContext 1 (running writeDesc)).setPacing 1
      (some { leader := 0, gap := 0, lead := some 1, state := .armed })
    let lead1 := lead.setContext 0 { lead.context 0 with progress := 1 }
    let data := reading.setContext 0 { reading.context 0 with entries := [entry 0 .requested] }
    let full := writing.setContext 0 { writing.context 0 with
      lines := [{ line with addr := 0x3000 }, { line with slot := 1, addr := 0x3020 },
        { line with slot := 2, addr := 0x3040 }, { line with slot := 3, addr := 0x3060 }] }
    (pace.nextElement 0 = some writeTaking ∧ pace.mayTake 0 writeTaking = false ∧ pace.linkLost 0 = false
        ∧ pace.paceStep 0 = .pace)
      ∧ (lead.mayTake 0 writeTaking = true ∧ lead1.nextElement 0 = some writeTaking
        ∧ lead1.mayTake 0 writeTaking = false ∧ lead1.linkLost 0 = false ∧ lead1.paceStep 0 = .lead)
      ∧ (data.nextElement 0 = some readTaking ∧ data.mayTake 0 readTaking = false ∧ data.linkLost 0 = false
        ∧ data.paceStep 0 = .pass)
      ∧ (full.nextElement 0 = some writeTaking ∧ full.mayTake 0 writeTaking = false ∧ full.linkLost 0 = false
        ∧ full.paceStep 0 = .pass) := by decide

/-- MarkIsPostedAtItsOrdinal: the taken element at the MARK ordinal, and without one. -/
theorem test_meets_mark :
    let d := { writeDesc with mark := some 0 }
    let s := writing.setContext 0 { writing.context 0 with snapshot := some d }
    let k : Taking := { writeTaking with d := d }
    s.nextElement 0 = some k ∧ s.mayTake 0 k = true ∧ k.d.mark = some (k.d.ordinal k.pos) ∧ s.events.length < 32
      ∧ writeTaking.d.mark ≠ some (writeTaking.d.ordinal writeTaking.pos) := by decide

/-- ExhaustedWriteWalkDrains: the last position, with a head that needs one more element. -/
theorem test_meets_exhausted :
    let s := writing.setContext 0 { writing.context 0 with take := .at #v[3, 0, 0, 0] }
    let k : Taking := { writeTaking with pos := #v[3, 0, 0, 0] }
    s.nextElement 0 = some k ∧ s.mayTake 0 k = true ∧ k.d.direction = .write ∧ k.bytes.length = 4
      ∧ (k.d.advance k.pos).1 = .exhausted ∧ k.head.answer = none ∧ k.head.taken + 1 < k.head.count.getD 0 := by decide

/-- ExhaustedWriteWalkDrains: a read walk at its last position, and one at progress 2^48 − 2. -/
theorem test_meets_readEnd :
    let d := { readDesc with count := #v[1, 0, 0, 0] }
    let s := reading.setContext 0 { reading.context 0 with snapshot := some d }
    let q := reading.setContext 0 { reading.context 0 with progress := 2 ^ 48 - 2 }
    let k : Taking := { readTaking with d := d }
    (s.nextElement 0 = some k ∧ s.mayTake 0 k = true ∧ (k.d.advance k.pos).1 = .exhausted)
      ∧ (q.nextElement 0 = some readTaking ∧ q.mayTake 0 readTaking = true
        ∧ (readTaking.d.advance readTaking.pos).1 ≠ .exhausted ∧ (q.context 0).progress + 1 = 2 ^ 48 - 1)
      ∧ (s.context 0).lines = [] ∧ s.attachedWrites 0 = 0 ∧ (s.context 0).launchQ = [] ∧ k.d.chain = none
      ∧ ((after (.elementTake 0) s).context 0).endCause = some .exhausted
      ∧ ((after (.elementTake 0) q).context 0).endCause = some .limit := by decide

/-- ElementConversionAndLanes: widening, narrowing and equal widths at the largest value. -/
theorem test_meets_conversion :
    (3 ≤ 4 ∧ 0xFFFFFF < 256 ^ 3) ∧ (2 < 4 ∧ 0xFFFFFFFF < 256 ^ 4) ∧ writeDesc.memWidth ≤ 4 := by decide

/-- AdvanceRaisesOrdinalByOne: the first and the last position of a walk. -/
theorem test_meets_advance :
    readDesc.levels ≤ 4 ∧ (∀ k : Fin 4, k.val < readDesc.levels → (#v[0, 0, 0, 0] : Vector Nat 4).get k < readDesc.count.get k)
      ∧ ∀ k : Fin 4, k.val < readDesc.levels → (#v[3, 0, 0, 0] : Vector Nat 4).get k < readDesc.count.get k := by decide

/-- LaunchedElementsStayInRegion, QueueWalkLaunchesIdleContext. -/
theorem test_meets_launch :
    let s := awaiting .queueWalk [0] ((withCtx .reset).setDesc 5 readDesc)
    s.launchCheck (s.desc 5) = none ∧ (s.context 0).state = .idle ∧ (s.context 0).service = []
      ∧ s.link.phase = .parameters ∧ s.link.code = some Command.queueWalk.code ∧ s.link.params = [BitVec.ofNat 8 0]
      ∧ (s.desc 5).memWidth = 4 := by decide

/-- QueueWalkWaitsOrIsRefused: queues of 3 and of 4, and an IDLE context with an unwritten descriptor. -/
theorem test_meets_queueWalk :
    let s (q : List DescIx) : State := awaiting .queueWalk [0] (withCtx { running readDesc with launchQ := q })
    let i := awaiting .queueWalk [0] (withCtx .reset)
    ((s [1, 2, 3]).context 0).state ≠ .idle ∧ ((s [1, 2, 3]).context 0).launchQ.length < 4
      ∧ ((s [1, 2, 3, 4]).context 0).launchQ.length = 4
      ∧ i.launchCheck (i.desc 5) = some .unwritten ∧ (i.context 0).state = .idle ∧ (i.context 0).service = []
      ∧ i.link.params = [BitVec.ofNat 8 0] ∧ ∀ f, i.pacing f = none := by decide

/-- Context 0 leads the ARMED link of context 1, an ACTIVE follower whose head needs two elements; the transaction on
tag 5 waits in context 0. -/
def leading (x : Context) : State :=
  let y : Context := { running writeDesc with service := [3], headChecked := true }
  ((((withCtx { x with service := [5] }).setContext 1 y).setPacing 1
    (some { leader := 0, gap := 0, lead := none, state := .armed })).setSlot 3 (some (headSlot write2 2))).setSlot 5
      (some (headSlot read2 2))

/-- QueueWalkWaitsOrIsRefused, CompletedDrainLaunchesNextWalk, AbortWalkClearsContext, LineWriteFaultFaultsContext,
SoftResetAbortsEveryContext: the premises of `AnsweredFault` and of `LinksLost`. -/
theorem test_meets_leading :
    let s := leading (running writeDesc)
    s.Waits [5] ∧ s.Waits [3] ∧ s.Waits (allCtx.flatMap fun c => (s.context c).service)
      ∧ (s.context 0).service = [5] ∧ (leading .reset).launchCheck ((leading .reset).desc 5) = some .unwritten
      ∧ s.followersOf 0 = [1] ∧ (s.context 1).state = .active ∧ (s.context 1).snapshot.isSome = true
      ∧ (s.context 1).service = [3] ∧ (∀ g, g ≠ 1 → (3 : HostTag) ∉ (s.context g).service)
      ∧ (s.context 1).headChecked = true ∧ s.slot 3 = some (headSlot write2 2) ∧ (headSlot write2 2).taken < 2
      ∧ (after (.abortWalk 1) (awaiting .abortWalk [0] s)).responses = [5, 3]
      ∧ (after (.abortWalk 1) (awaiting .abortWalk [0] s)).events.map (fun e => (e.kind, e.reason))
        = [(.hostFault, some .aborted), (.leaderLost, some .aborted), (.hostFault, some .leaderLost)] := by
  have w : ∀ q : List HostTag, q.Nodup → (∀ u ∈ q, ((leading (running writeDesc)).slot u).any (·.answer.isNone) = true) →
      (leading (running writeDesc)).Waits q := fun q h k => ⟨h, fun u hu => by
    have := k u hu
    cases hs : (leading (running writeDesc)).slot u with
    | none => simp [hs] at this
    | some x => exact ⟨x, rfl, by simpa [hs] using this⟩⟩
  exact ⟨w _ (by decide) (by decide), w _ (by decide) (by decide), w _ (by decide) (by decide), by decide, by decide,
    by decide, by decide, by decide, by decide, by decide, by decide, by decide, by decide, by decide, by decide⟩

/-- A drained write walk. -/
def drainedWalk (d : Descriptor) (q : List DescIx) : State :=
  withCtx { running d with state := .draining, endCause := some .exhausted, take := .exhausted, launchQ := q }

/-- CompletedDrainLaunchesNextWalk: a chain, a queued walk and neither; an answer that completes a drain and one that
does not. -/
theorem test_meets_drain :
    let d := { writeDesc with chain := some 6, doneEvent := true }
    let t : TrackEntry :=
      { kind := .write, span := ⟨0x1000, 1⟩, origin := .gather 0 1 0x1000, detached := false, state := .inFlight, sent := 0 }
    let s := (drainedWalk writeDesc []).setTrack 4 (some t)
    (drainedWalk d []).drained 0 = true ∧ (drainedWalk writeDesc [7]).drained 0 = true
      ∧ (drainedWalk writeDesc []).drained 0 = true
      ∧ s.rstLow = false ∧ s.track 4 = some t ∧ (s.setTrack 4 none).drained 0 = true
      ∧ ((withCtx (running writeDesc)).setTrack 4 none).drained 0 = false := by decide

/-- CompletedDrainLaunchesNextWalk: a launch under a link that stays BROKEN; the waiting write is answered
LEADER_LOST. -/
theorem test_meets_brokenLaunch :
    let link : PacingLink := { leader := 1, gap := 0, lead := none, state := .broken }
    let s := ((((drainedWalk writeDesc [7]).setContext 0
      { (drainedWalk writeDesc [7]).context 0 with service := [3] }).setDesc 7 writeDesc).setContext 1
        { Context.reset with state := .faulted }).setPacing 0 (some link)
    let s := s.setSlot 3 (some { write2.newSlot with cls := some (.walk 0) })
    s.drained 0 = true ∧ s.launchCheck (s.desc 7) = none ∧ s.pacing 0 = some link
      ∧ (s.context link.leader).state = .faulted ∧ (s.slot 3).any (fun x => x.answer.isNone) = true
      ∧ (after (.drainComplete 0) s).events.map (·.reason) = [some .leaderLost] := by decide

/-- EndWalkStopsActiveWalk: a write walk with a line and no head, an untouched head, or a head served in part; a read
walk. -/
theorem test_meets_endWalk :
    let part : HostSlot := { headSlot write2 2 with taken := 1 }
    let w (q : List HostTag) (x : HostSlot) : State := awaiting .endWalk []
      ((withCtx { running writeDesc with service := q, headChecked := true, lines := [line] }).setSlot 3 (some x))
    ((w [] part).context 0).state = .active ∧ ((w [] part).context 0).lines ≠ [] ∧ ((w [] part).context 0).service = []
      ∧ (w [3] (headSlot write2 2)).slot 3 = some (headSlot write2 2) ∧ (headSlot write2 2).taken = 0
      ∧ (w [3] part).slot 3 = some part ∧ part.answer = none ∧ part.count = some 2 ∧ 0 < part.taken ∧ part.taken < 2
      ∧ (reading.context 0).launchQ = [] ∧ (reading.context 0).lines = [] ∧ reading.attachedWrites 0 = 0
      ∧ (State.reset.context 0).state ≠ .active := by decide

/-- QueueWalkWaitsOrIsRefused, EndWalkStopsActiveWalk, AbortWalkClearsContext, ClearFaultLeavesFaulted,
FlushedAndAgedLinesIssue: the least context and descriptor index that are refused. -/
theorem test_meets_badIndex :
    let a (k : Command) (ps : List Byte) : State := awaiting k ps State.reset
    (8 ≤ (8 : Byte).toNat ∧ 64 ≤ (64 : Byte).toNat)
      ∧ (a .queueWalk [8]).link.awaits .queueWalk [8] ∧ (a .queueWalk [7]).link.awaits .queueWalk [7]
      ∧ (a .endWalk []).link.awaits .endWalk [] ∧ (a .abortWalk [8]).link.awaits .abortWalk [8]
      ∧ (a .clearFault []).link.awaits .clearFault [] ∧ (a .flushLines []).link.awaits .flushLines [] :=
  ⟨by decide, ⟨rfl, rfl, rfl⟩, ⟨rfl, rfl, rfl⟩, ⟨rfl, rfl, rfl⟩, ⟨rfl, rfl, rfl⟩, ⟨rfl, rfl, rfl⟩, ⟨rfl, rfl, rfl⟩⟩

/-- AbortWalkClearsContext: without purge, a queue whose head is launched and one whose head is refused; the entry
behind it stays. -/
theorem test_meets_abortKeep :
    let s := awaiting .abortWalk [0] ((withCtx { running readDesc with launchQ := [6, 7] }).setDesc 6 writeDesc)
    let u := awaiting .abortWalk [0] (withCtx { running readDesc with launchQ := [7, 6] })
    let t := (after (.abortWalk 0) s).context 0
    let v := (after (.abortWalk 0) u).context 0
    s.link.params = [BitVec.ofNat 8 0] ∧ s.launchCheck (s.desc 6) = none ∧ u.launchCheck (u.desc 7) = some .unwritten
      ∧ (t.state, t.descIndex, t.launchQ) = (.active, some 6, [7])
      ∧ (v.state, v.faultReason, v.launchQ) = (.faulted, some .launchRefused, [6]) := by decide

/-- ClearFaultLeavesFaulted and AbortWalkClearsContext: a FAULTED context without and with a queued walk. -/
theorem test_meets_faulted :
    let s (q : List DescIx) : State := awaiting .clearFault [] (withCtx { Context.reset with state := .faulted, launchQ := q })
    ((s []).context 0).state = .faulted ∧ ((s []).context 0).launchQ = [] ∧ ((s [5]).context 0).launchQ = [5]
      ∧ (s []).link.phase = .parameters ∧ (s []).link.code = some Command.clearFault.code ∧ (s []).link.params = []
      ∧ (awaiting .abortWalk [0] (s [])).link.params = [BitVec.ofNat 8 0] ∧ 1 < (2 : Byte).toNat := by decide

/-- LineWriteFaultFaultsContext: an attached write in flight, and a detached one. -/
theorem test_meets_lineFault :
    let t (b : Bool) : TrackEntry :=
      { kind := .write, span := ⟨0x1000, 1⟩, origin := .gather 0 1 0x1000, detached := b, state := .inFlight, sent := 0 }
    let s (b : Bool) : State := (withCtx (running writeDesc)).setTrack 4 (some (t b))
    (s true).track 4 = some (t true) ∧ (s false).track 4 = some (t false) ∧ (s false).rstLow = false
      ∧ ((s false).context 0).service = [] ∧ ∀ f, (s false).pacing f = none := by decide

/-- FlushedAndAgedLinesIssue: an OPEN line of age 64, and of age 63. -/
theorem test_meets_aged :
    let s := withCtx { running writeDesc with lines := [line] }
    line ∈ (s.context 0).lines ∧ line.addr = (0x1000 : BitVec 32).toNat ∧ line.state = .opened
      ∧ s.settings.gatherAgeUs ≠ 0 ∧ s.settings.gatherAgeUs ≤ (64 + 2 ^ 32 - line.openedAt.toNat) % 2 ^ 32
      ∧ ¬ s.settings.gatherAgeUs ≤ (63 + 2 ^ 32 - line.openedAt.toNat) % 2 ^ 32
      ∧ (awaiting .flushLines [] s).link.code = some Command.flushLines.code := by decide

/-- PaceTimeoutFinishesHead: 50,001 microseconds held. -/
theorem test_meets_paceTimeout :
    (paced.context 0).state = .active ∧ (paced.context 0).hold = .pace ∧ (paced.context 0).service = [3]
      ∧ paced.slot 3 = some (headSlot write2 2) ∧ (headSlot write2 2).answer = none ∧ paced.settings.paceLimitUs ≠ 0
      ∧ paced.settings.paceLimitUs < (50001 + 2 ^ 32 - (paced.context 0).holdStart.toNat) % 2 ^ 32 := by decide

/-- ArbiterTakesFirstReadySource, PassthroughAdmissionJoinsIssueQueue. -/
theorem test_meets_passthrough :
    passing.nextAdmission = some 0 ∧ passing.iq.length < 16 ∧ passing.pointer = 0 ∧ State.reset.nextAdmission ≠ some 0
      ∧ passing.fifo = [{ tag := 2, waitSet := [] }] ∧ (passing.slot 2).isSome = true := by
  decide

/-- ReadAheadAdmissionRequestsEntry, for contexts 0 and 7. -/
theorem test_meets_readAhead :
    let x := { running readDesc with entries := [entry 0 .pending] }
    (withCtx x).nextAdmission = some (Fin.ofNat 17 (1 + 2 * 0)) ∧ (withCtx x).readCandidate 0 = some (entry 0 .pending)
      ∧ (State.reset.setContext 7 x).nextAdmission = some (Fin.ofNat 17 (1 + 2 * 7)) := by decide

/-- GatherLineAdmissionMakesWrite, for contexts 0 and 7. -/
theorem test_meets_gather :
    let x := { running writeDesc with lines := [line.issue], issuing := [0] }
    issuingLine.nextAdmission = some (Fin.ofNat 17 (2 + 2 * 0)) ∧ issuingLine.gatherCandidate 0 = some line.issue
      ∧ (State.reset.setContext 7 x).nextAdmission = some (Fin.ofNat 17 (2 + 2 * 7)) := by decide

/-- IssueTakesOldestEligibleEntry: a blocked entry, then one that is eligible; tag 0 is in use. -/
theorem test_meets_issue :
    let q (a : Nat) : IqEntry :=
      { kind := .read, span := ⟨a, 1⟩, data := [], strobes := [], origin := .host 5, detached := false }
    let s := { inFlight with iq := [q 0x2000, q 0x3000] }
    s.channel = none ∧ s.iq = [q 0x2000] ++ q 0x3000 :: [] ∧ s.hazardInFlight (q 0x2000).kind (q 0x2000).span = true
      ∧ s.hazardInFlight (q 0x3000).kind (q 0x3000).span = false
      ∧ hazard (q 0x2000).kind (q 0x2000).span (q 0x3000).kind (q 0x3000).span = false
      ∧ s.track 1 = none ∧ s.track 0 ≠ none
      ∧ (after .issue (after .passthroughAdmission passing)).channel.isSome = true := by decide

/-- LateAndStrayResponsesAreReported, PassthroughIsAnsweredByMemory. -/
theorem test_meets_response :
    let e : TrackEntry :=
      { kind := .write, span := ⟨0x2000, 1⟩, origin := .host 2, detached := false, state := .inFlight, sent := 0 }
    inFlight.rstLow = false ∧ inFlight.track 9 = none ∧ inFlight.track 0 = some e
      ∧ (inFlight.slot 2).any (fun x => x.answer.isNone) = true
      ∧ ((after (.memoryTimeout 0) { inFlight with timebase := 2001 }).track 0).map (·.state) = some .quarantined := by
  decide

/-- ReadAnswerChangesItsEntry: a REQUESTED entry and a REQUESTED_STALE one. -/
theorem test_meets_readAnswer :
    let a : TrackEntry :=
      { kind := .read, span := ⟨0x1000, 1⟩, origin := .readAhead 0 1 0, detached := false, state := .inFlight, sent := 0 }
    let s (st : EntryState) : State := (withCtx { running readDesc with entries := [entry 0 st] }).setTrack 6 (some a)
    (s .requested).track 6 = some a ∧ ((s .requested).context 0).snapshot = some readDesc
      ∧ ((s .requested).context 0).entries = [entry 0 .requested]
      ∧ ((s .requestedStale).context 0).entries = [entry 0 .requestedStale] := by decide

/-- TimedOutRequestIsQuarantined: 2,001 microseconds. -/
theorem test_meets_timeout :
    (inFlight.track 0).map (·.origin) = some (.host 2) ∧ inFlight.settings.memTimeoutUs ≠ 0
      ∧ inFlight.settings.memTimeoutUs < (2001 + 2 ^ 32 - (0 : BitVec 32).toNat) % 2 ^ 32
      ∧ ((1 : MemTag) ≠ 0 ∧ inFlight.track 1 = none) := by decide

/-- TimedOutRequestIsQuarantined: an attached read, an attached and a detached line write, and the last of 32 tags. -/
theorem test_meets_timeouts :
    let read : TrackEntry :=
      { kind := .read, span := ⟨0x1000, 1⟩, origin := .readAhead 0 1 0, detached := false, state := .inFlight, sent := 0 }
    let write (b : Bool) : TrackEntry :=
      { kind := .write, span := ⟨0x1000, 1⟩, origin := .gather 0 1 0x1000, detached := b, state := .inFlight, sent := 0 }
    let r := { (withCtx { running readDesc with entries := [entry 0 .requested] }).setTrack 6 (some read) with
      timebase := 2001 }
    let w (b : Bool) : State := { (withCtx (running writeDesc)).setTrack 6 (some (write b)) with timebase := 2001 }
    let all := { w true with
      tracker := Vector.ofFn fun t => some { write true with state := if t = 6 then .inFlight else .quarantined } }
    r.requestTimedOut 6 = true ∧ (r.context 0).entries = [entry 0 .requested] ∧ r.track 1 = none
      ∧ (after (.memoryTimeout 6) r).events.map (·.kind) = [.memoryTimeout, .readFault]
      ∧ ((after (.memoryTimeout 6) (w false)).context 0).faultReason = some .memoryTimeout
      ∧ (after (.memoryTimeout 6) (w true)).events.map (·.value) = [some 6, some 0]
      ∧ all.requestTimedOut 6 = true ∧ ∀ u, u ≠ 6 → (all.track u).map (·.state) = some .quarantined := by decide

/-- FramePhasesFollowBytes: each phase, with a command of one parameter. -/
theorem test_meets_frames :
    State.reset.mselLow = false ∧ State.reset.rstLow = false ∧ State.reset.link.phase = .idle
      ∧ (after .hardwareReset State.reset).rstLow = true ∧ (after .frameBegin State.reset).link.phase = .address
      ∧ (0xA4 : Byte) = State.reset.linkAddress ∧ (0xA5 : Byte) ≠ State.reset.linkAddress
      ∧ (after (.linkByteComplete 0xA5) (after .frameBegin State.reset)).link.phase = .ignored
      ∧ (inCommand State.reset).link.phase = .command ∧ (inCommand State.reset).link.params = []
      ∧ Command.readDesc.paramLen = some (0 + 1) ∧ Command.setTimers.paramLen = some (7 + 1)
      ∧ Command.ofCode 0x7F = none := by decide

/-- ResponseIsShiftedOut, RefusalChangesNothing: a completing byte in each of the two phases. -/
theorem test_meets_link :
    (inCommand State.reset).link.completing 0x7E = some .softReset
      ∧ (awaiting .readDesc [] State.reset).link.completing 64 = some .readDesc
      ∧ (after .identify (inCommand State.reset)).link.phase = .response := by decide

/-- ReadCommandsReportAndChangeNothing, ClearDescClearsOneRecord: the frames, and the first index out of range. -/
theorem test_meets_reads :
    let a (k : Command) : Frame := (awaiting k [] State.reset).link
    (∀ k ∈ [Command.readDesc, .readAperture, .readContext, .readPacing, .clearDesc, .clearPacing],
        (a k).phase = .parameters ∧ (a k).code = some k.code ∧ (a k).params = [])
      ∧ 64 ≤ (64 : Byte).toNat ∧ 8 ≤ (8 : Byte).toNat ∧ fullQueue.events ≠ [] := by decide

/-- WriteDescAppliesPairs: the byte at each place, refused and accepted at the boundaries of Table 6. -/
theorem test_meets_writeDesc :
    let s := awaiting .writeDesc [] State.reset
    s.link.phase = .parameters ∧ s.link.code = some Command.writeDesc.code ∧ s.link.desc = none ∧ s.link.pairs = none
      ∧ atLevels.link.desc = some 12 ∧ atLevels.link.pairs = some 2 ∧ atLevels.link.field = some .levels
      ∧ atLevels.link.value.length + 1 = Field.levels.width ∧ atLevels.link.applied + 1 = 2
      ∧ (Field.accepts 4 .levels ↔ True) ∧ (Field.accepts 5 .levels ↔ False) ∧ (Field.accepts 0 .levels ↔ False)
      ∧ Field.ofId 0x04 = none ∧ Field.ofId 0x34 = some .readAhead ∧ 1 < Field.base.width :=
  ⟨by decide, by decide, by decide, by decide, by decide, by decide, by decide, by decide, by decide,
    by simp [Field.accepts], by simp [Field.accepts], by simp [Field.accepts], by decide, by decide, by decide⟩

/-- SetApertureChecksInOrder: the frame; a record in use, a range that meets an aperture, one that meets a target. -/
theorem test_meets_setAperture :
    let s := awaiting .setAperture apertureParams (withCtx (running readDesc))
    s.link.phase = .parameters ∧ s.link.code = some Command.setAperture.code ∧ s.link.params = apertureParams
      ∧ (12 ≤ (12 : Byte).toNat ∧ (12 : Byte).toNat ≤ 28) ∧ 2 ^ 12 ∣ decodeLE [0, 0, 0, 0x40]
      ∧ ¬ 2 ^ 12 ∣ decodeLE [0, 8, 0, 0x40] ∧ (s.aperture 0).enabled = true ∧ (s.aperture 1).enabled = false
      ∧ (s.context 0).region = some ⟨0x1000, 0x100F⟩ := by decide

/-- PacingLinkIsSetAndCleared: a link that closes a cycle of two, a limit equal to the gap, an ARMED link, a FAULTED
leader. -/
theorem test_meets_setPacing :
    let s := paced
    let f := paced.setContext 1 { Context.reset with state := .faulted }
    (∃ n, n < 8 ∧ s.ahead n 0 = some 1) ∧ (∀ n, n < 8 → s.ahead n 1 ≠ some 0) ∧ (decodeLE [2, 0] ≠ 0 ∧ decodeLE [2, 0] ≤ 2)
      ∧ (f.context 1).state = .faulted ∧ (f.context 0).state = .active ∧ (f.context 0).service = [3]
      ∧ (f.context 0).headChecked = true ∧ f.slot 3 = some (headSlot write2 2)
      ∧ (awaiting .setPacing [0, 1, 0, 0, 0] s).link.params = [0, 1, 0, 0, 0] := by decide

/-- PacingLinkIsSetAndCleared: the premises of `HoldsAfresh`. A head held PACE by the table that SET_PACING leaves, one
that CLEAR_PACING lets pass to step 2, for a read and for a write, and one that a lead limit holds. -/
theorem test_meets_holds :
    let link : PacingLink := { leader := 0, gap := 0, lead := some 1, state := .armed }
    let led := (writing.setContext 0 { writing.context 0 with progress := 1 }).setContext 1
      { running readDesc with service := [] }
    let set (s : State) : State := after (.setPacing 0) (awaiting .setPacing [0, 1, 0, 0, 0] s)
    let clear (s : State) : State := after (.clearPacing 0) (awaiting .clearPacing [] s)
    let limit := after (.setPacing 0) (awaiting .setPacing [1, 0, 0, 0, 1] led)
    (set writing).nextElement 0 = some writeTaking ∧ ((set writing).context 0).hold = .pace
      ∧ ((set { paced with timebase := 9 }).context 0).holdStart = 0
      ∧ ((set { writing with timebase := 9 }).context 0).holdStart = 9
      ∧ (clear paced).nextElement 0 = some writeTaking ∧ ((clear paced).context 0).hold = .none
      ∧ (clear reading).nextElement 0 = some readTaking ∧ ((clear reading).context 0).hold = .none
      ∧ (limit.nextElement 0).isSome = true ∧ limit.pacing 1 = some link ∧ (limit.context 1).state = .active
      ∧ (limit.context 1).progress + 1 ≤ (limit.context 0).progress ∧ (limit.context 0).hold = .lead := by decide

/-- SetTimersWritesSettings: the bounds of CLOCK_MHZ, settings kept in force, and one changed to 63; a head held PACE and
a request in flight beyond new settings. -/
theorem test_meets_setTimers :
    let s := awaiting .setTimers [25, 0xD0, 7, 0x50, 0xC3, 0, 63] State.reset
    s.link.phase = .parameters ∧ s.link.code = some Command.setTimers.code
      ∧ (25 ≤ (25 : Byte).toNat ∧ (200 : Byte).toNat ≤ 200 ∧ (24 : Byte).toNat < 25 ∧ 200 < (201 : Byte).toNat)
      ∧ decodeLE [0xD0, 7] = s.settings.memTimeoutUs ∧ decodeLE [0x50, 0xC3, 0] = s.settings.paceLimitUs
      ∧ ¬ (decodeLE [63, 0] = 0 ∨ decodeLE [63, 0] = s.settings.gatherAgeUs)
      ∧ (paced.context 0).hold = .pace ∧ paced.paceStep 0 = .pace ∧ (paced.context 0).service = [3]
      ∧ (∀ g, g ≠ 0 → (3 : HostTag) ∉ (paced.context g).service) ∧ 50 < (51 + 2 ^ 32 - (paced.context 0).holdStart.toNat) % 2 ^ 32
      ∧ (inFlight.track 0).any (fun e => e.state == .inFlight && e.sent == 0) = true := by decide

/-- SoftResetAbortsEveryContext, LostEventsAreCountedAndReported: a frame in phase COMMAND, with and without losses. -/
theorem test_meets_events :
    (inCommand fullQueue).link.phase = .command ∧ fullQueue.loss ≠ 0 ∧ fullQueue.loss < 65535
      ∧ 32 ≤ fullQueue.events.length ∧ State.reset.events.length < 32 ∧ State.reset.loss = 0
      ∧ (passing.slot 2).any (fun x => x.cls == some .passthrough) = true
      ∧ ∀ c, (2 : HostTag) ∉ (passing.context c).service := by decide

/-- AttentionMaskDecidesAttn: the largest mask accepted and the smallest refused. -/
theorem test_meets_mask :
    (awaiting .setAttentionMask [0xFF] State.reset).link.params = [0xFF]
      ∧ (0xFF : Byte).toNat + 256 * (0x3F : Byte).toNat < 2 ^ 14
      ∧ 2 ^ 14 ≤ (0 : Byte).toNat + 256 * (0x40 : Byte).toNat := by decide

/-- EveryTakenElementIsPaced: the progress of a context grows in a step. -/
theorem test_meets_progress :
    (writing.context 0).progress < ((after (.elementTake 0) writing).context 0).progress := by decide

/-- The laws that every step keeps: a walk in progress meets them, and a step leaves its state. -/
theorem test_meets_laws :
    writing.TrackerLaw ∧ writing.QueueLaw ∧ writing.ContextLaw ∧ writing.ApertureLaw ∧ writing.PacingLaw
      ∧ writing.ResponseLaw ∧ writing.BufferLaw
      ∧ step { writing with pending := [.elementTake 0] } = .next (after (.elementTake 0) writing) := by
  have noTrack : ∀ t, writing.track t = none := by decide
  have noLink : ∀ f, writing.pacing f = none := by decide
  have noCycle : ∀ f : Ctx, ∀ n < 9, 0 < n → writing.ahead n f ≠ some f := by decide
  have noAnswer : ∀ t, ((writing.slot t).all fun x => x.answer.isNone) = true := by decide
  refine ⟨fun t u a b _ h => ?_, ?_, fun c => ?_, apertureLaw_of (by decide) (by decide),
    ⟨fun f l h => ?_, fun f n h h' => noCycle f n (by omega) h⟩, ⟨by decide, fun t => ⟨fun h => ?_, fun h => ?_⟩⟩, fun c => ?_, rfl⟩
  · simp [noTrack] at h
  · unfold State.QueueLaw; decide
  · unfold Context.StateLaw; revert c; decide
  · simp [noLink] at h
  · exact absurd h (by revert t; decide)
  · obtain ⟨x, hx, h⟩ := h
    have k := noAnswer t
    rw [hx] at k
    simp_all
  · unfold Context.BufferLaw; revert c; decide

end Sys2Proof.Tests
end

section
/-! The context law (O55): what an operation may leave of a context's state, Launch Queue, target region and Service
Queue, and that every command keeps Table 8. -/

namespace Sys2Proof.Machine

open Sys2Proof

/-! ### Operations that keep the context law -/

/-- `y` has the state, Launch Queue and target region of `x`, and no transaction waiting that was not waiting in
`x`. -/
structure Context.Quiet (x y : Context) : Prop where
  state : y.state = x.state
  launchQ : y.launchQ = x.launchQ
  region : y.region = x.region
  service : y.service <:+ x.service

/-- Every context of `t` is as quiet as in `s`. -/
def State.Quiet (s t : State) : Prop := ∀ c, (s.context c).Quiet (t.context c)

theorem Context.Quiet.refl (x : Context) : x.Quiet x := ⟨rfl, rfl, rfl, List.suffix_refl _⟩

theorem Context.StateLaw.quiet {x y : Context} (hx : x.StateLaw) (h : x.Quiet y) : y.StateLaw := by
  obtain ⟨hlen, hidle, hfault, hreg⟩ := hx
  have nil : x.service = [] → y.service = [] := fun e => List.suffix_nil.mp (e ▸ h.service)
  refine ⟨h.launchQ ▸ hlen, fun e => ?_, fun e => nil (hfault (h.state ▸ e)), ?_⟩
  · exact ⟨h.launchQ ▸ (hidle (h.state ▸ e)).1, nil (hidle (h.state ▸ e)).2⟩
  · rw [h.region, h.state]; exact hreg

theorem State.Quiet.trans {s t u : State} (h : s.Quiet t) (k : t.Quiet u) : s.Quiet u := fun c =>
  ⟨(k c).state.trans (h c).state, (k c).launchQ.trans (h c).launchQ, (k c).region.trans (h c).region,
    (k c).service.trans (h c).service⟩

theorem State.ContextLaw.quiet {s t : State} (hs : s.ContextLaw) (h : s.Quiet t) : t.ContextLaw :=
  fun c => (hs c).quiet (h c)

theorem State.Serves.quiet {s t : State} (h : s.Serves t) : s.Quiet t :=
  fun c => ⟨h.state c, h.launchQ c, h.region c, h.service c⟩

theorem State.Resettled.quiet {s t : State} (h : s.Resettled t) : s.Quiet t :=
  fun c => ⟨h.state c, h.launchQ c, h.region c, h.service c ▸ List.suffix_refl _⟩

theorem State.setContext_quiet (s : State) {c : Ctx} {x : Context} (h : (s.context c).Quiet x) :
    s.Quiet (s.setContext c x) := fun c' => by
  by_cases e : c = c'
  · subst e; simpa using h
  · simpa [State.context_setContext_of_ne _ e] using Context.Quiet.refl _

theorem State.mapContexts_quiet (s : State) {f : Ctx → Context → Context}
    (h : ∀ c, (s.context c).Quiet (f c (s.context c))) : s.Quiet (s.mapContexts f) := fun c => by
  simpa using h c

theorem State.Quiet.of_ctx {s t : State} (h : t.ctx = s.ctx) : s.Quiet t := fun c => by
  have e : t.context c = s.context c := by simp [State.context, h]
  rw [e]; exact .refl _

/-- What leaves the contexts alone keeps the law. -/
theorem State.ContextLaw.of_ctx {s t : State} (h : s.ContextLaw) (e : t.ctx = s.ctx) : t.ContextLaw :=
  h.quiet (.of_ctx e)

/-- Writing a lawful record keeps the law. -/
theorem State.ContextLaw.setContext {s : State} (h : s.ContextLaw) {c : Ctx} {x : Context} (hx : x.StateLaw) :
    (s.setContext c x).ContextLaw := fun c' => by
  rw [State.context_setContext]; split
  · exact hx
  · exact h c'

theorem State.ContextLaw.settle {s : State} (h : s.ContextLaw) : s.settle.ContextLaw := h.quiet s.settle_resettled.quiet

theorem State.ContextLaw.serves {s t : State} (h : s.ContextLaw) (k : s.Serves t) : t.ContextLaw := h.quiet k.quiet

/-- Rewriting the lines of a context keeps its law. -/
theorem Context.quiet_lines (x : Context) (ls : List GatherLine) : x.Quiet { x with lines := ls } :=
  ⟨rfl, rfl, rfl, List.suffix_refl _⟩

theorem State.discardReadAhead_quiet (s : State) (c : Ctx) : s.Quiet (s.discardReadAhead c) :=
  s.setContext_quiet ⟨rfl, rfl, rfl, List.suffix_refl _⟩

theorem State.discardLines_quiet (s : State) (c : Ctx) : s.Quiet (s.discardLines c) :=
  s.setContext_quiet ⟨rfl, rfl, rfl, List.suffix_refl _⟩

theorem State.detach_quiet (s : State) (p : Origin → Bool) (b : Bool) : s.Quiet (s.detach p b) := .of_ctx rfl

theorem State.passArrival_quiet (s : State) (r : HostRequest) : s.Quiet (s.passArrival r) := by
  have h : s.Quiet (s.mapContexts fun _ x =>
      { x with lines := x.lines.map fun l => if l.span.overlaps r.span then l.issue else l }) :=
    s.mapContexts_quiet fun _ => Context.quiet_lines _ _
  exact h

/-! ### Launches, faults and drains -/

/-- The law of every context but `c`, whose Launch Queue keeps its capacity: what holds while a walk of `c` is being
replaced. -/
structure State.LawBut (s : State) (c : Ctx) : Prop where
  others : ∀ c', c' ≠ c → (s.context c').StateLaw
  capacity : (s.context c).launchQ.length ≤ 4

theorem State.ContextLaw.lawBut {s : State} (h : s.ContextLaw) (c : Ctx) : s.LawBut c := ⟨fun c' _ => h c', (h c).1⟩

theorem State.LawBut.quiet {s t : State} {c : Ctx} (h : s.LawBut c) (k : s.Quiet t) : t.LawBut c :=
  ⟨fun c' e => (h.others c' e).quiet (k c'), (k c).launchQ ▸ h.capacity⟩

/-- The law of `c` too makes it the law of all. -/
theorem State.LawBut.contextLaw {s : State} {c : Ctx} (h : s.LawBut c) (hc : (s.context c).StateLaw) :
    s.ContextLaw := fun c' => by
  by_cases e : c' = c
  · exact e ▸ hc
  · exact h.others c' e

theorem State.LawBut.setContext {s : State} {c : Ctx} (h : s.LawBut c) {x : Context} (hx : x.launchQ.length ≤ 4) :
    (s.setContext c x).LawBut c where
  others := fun c' e => by simpa [State.context_setContext_of_ne _ (Ne.symm e)] using h.others c' e
  capacity := by simpa using hx

/-- Entry to FAULTED empties the Service Queue and drops the region (R34, R36). -/
theorem State.LawBut.faultContext {s : State} {c : Ctx} (h : s.LawBut c) (why : FaultReason) :
    (s.faultContext c why).ContextLaw := by
  have ha := h.quiet (s.answerAll_serves c .contextFaulted).quiet
  refine State.ContextLaw.serves ((ha.setContext (x := _) ?_).contextLaw ?_) (State.breakLinks_serves _ c _)
  · exact ha.capacity
  · simp [Context.StateLaw, ha.capacity]

@[simp] theorem State.rearm_ctx (s : State) (c : Ctx) : (s.rearm c).ctx = s.ctx := by
  unfold State.rearm; split
  · rfl
  · split <;> rfl

/-- A launch leaves its context ACTIVE with a region, or FAULTED (R23, R24). -/
theorem State.LawBut.launch {s : State} {c : Ctx} (h : s.LawBut c) (i : DescIx) : (s.launch c i).ContextLaw := by
  unfold State.launch
  split
  · refine State.ContextLaw.serves ?_ (State.promote_serves _ c)
    refine State.ContextLaw.quiet ((h.setContext (x := _) ?_).contextLaw ?_) (State.Quiet.of_ctx (State.rearm_ctx _ c))
    · exact h.capacity
    · simp [Context.StateLaw, Context.launched, h.capacity]
  · exact (h.quiet (s.post_serves _).quiet).faultContext _

theorem State.LawBut.launchNext {s : State} {c : Ctx} (h : s.LawBut c)
    (hc : (s.context c).launchQ = [] → (s.context c).StateLaw) : (s.launchNext c).ContextLaw := by
  unfold State.launchNext
  split
  · rename_i e; exact h.contextLaw (hc e)
  · rename_i i rest e
    refine (h.setContext ?_).launch i
    have := h.capacity
    simp [e] at this ⊢
    omega

/-- A context that is IDLE with nothing waiting and no region meets the law. -/
theorem Context.StateLaw.of_idle {x : Context} (hs : x.state = .idle) (hl : x.launchQ = []) (hq : x.service = [])
    (hr : x.region = none) : x.StateLaw := by simp [Context.StateLaw, hs, hl, hq, hr]

/-- Answering the Service Queue of an IDLE context that holds nothing else meets the law (R36). -/
theorem State.ContextLaw.answerAll_idle {s : State} {c : Ctx} (h : s.LawBut c) (hs : (s.context c).state = .idle)
    (hl : (s.context c).launchQ = []) (hr : (s.context c).region = none) (why : HostReason) :
    (s.answerAll c why).ContextLaw := by
  have ha := s.answerAll_serves c why
  refine (h.quiet ha.quiet).contextLaw (.of_idle ?_ ?_ (s.answerAll_service c why) ?_)
  · rw [ha.state, hs]
  · rw [ha.launchQ, hl]
  · rw [ha.region, hr]

/-- R30: a completed drain launches or leaves the context IDLE with its queues empty. -/
theorem State.ContextLaw.completeDrain {s : State} (h : s.ContextLaw) (c : Ctx) : (s.completeDrain c).ContextLaw := by
  have hd : ∀ b : Bool, (if b then s.post (s.walkDoneRecord c) else s).ContextLaw := by
    intro b; cases b
    · exact h
    · exact h.serves (s.post_serves _)
  unfold State.completeDrain
  dsimp only
  specialize hd (((s.context c).snapshot.map Descriptor.doneEvent).getD false)
  have hq : ((if ((s.context c).snapshot.map Descriptor.doneEvent).getD false then s.post (s.walkDoneRecord c)
      else s).context c).launchQ = (s.context c).launchQ := by split <;> simp
  generalize (if ((s.context c).snapshot.map Descriptor.doneEvent).getD false then s.post (s.walkDoneRecord c)
      else s) = s₁ at hd hq
  split
  · exact (hd.lawBut c).launch _
  · split
    · rename_i he
      have hl : (s₁.context c).launchQ = [] := by simpa [hq] using he
      refine State.ContextLaw.answerAll_idle (State.LawBut.setContext (hd.lawBut c) ?_) ?_ ?_ ?_ .noWalk <;> simp [hl]
    · exact (hd.lawBut c).launchNext fun _ => hd c

theorem State.ContextLaw.drainIfDone {s : State} (h : s.ContextLaw) (c : Ctx) : (s.drainIfDone c).ContextLaw := by
  unfold State.drainIfDone; split
  · exact h.completeDrain c
  · exact h

/-- R28: the end of an ACTIVE walk leaves its region until the drain. -/
theorem State.ContextLaw.endWalk {s : State} (h : s.ContextLaw) {c : Ctx} (ha : (s.context c).state = .active)
    (why : EndCause) : (s.endWalk c why).ContextLaw := by
  obtain ⟨hlen, -, -, hreg⟩ := h c
  have hr : (s.context c).region.isSome = true := hreg.mpr (.inl ha)
  have law (x : Context) (h₁ : x.state = .draining) (h₂ : x.launchQ = (s.context c).launchQ)
      (h₃ : x.region = (s.context c).region) : (s.setContext c x).ContextLaw :=
    h.setContext (by simp [Context.StateLaw, h₁, h₂, h₃, hlen, hr])
  unfold State.endWalk
  dsimp only
  refine State.ContextLaw.drainIfDone ?_ c
  split
  · refine State.ContextLaw.quiet ?_ (State.discardReadAhead_quiet _ c)
    exact law _ rfl rfl rfl
  · exact law _ rfl rfl rfl

/-- What an abort leaves of the contexts' laws (R32). -/
theorem State.ContextLaw.abort {s : State} (h : s.ContextLaw) (c : Ctx) (breaks purge : Bool) :
    (s.abort c breaks purge).LawBut c ∧ ((s.abort c breaks purge).context c).state = .idle
      ∧ ((s.abort c breaks purge).context c).service = [] ∧ ((s.abort c breaks purge).context c).region = none := by
  unfold State.abort
  dsimp only
  have h₁ : s.Quiet (((s.discardLines c).detach (Origin.isWriteOf c) true).discardReadAhead c) :=
    ((s.discardLines_quiet c).trans (State.detach_quiet _ _ _)).trans (State.discardReadAhead_quiet _ c)
  have h₂ := State.answerAll_serves (((s.discardLines c).detach (Origin.isWriteOf c) true).discardReadAhead c) c .aborted
  have hq := State.answerAll_service (((s.discardLines c).detach (Origin.isWriteOf c) true).discardReadAhead c) c .aborted
  generalize (((s.discardLines c).detach (Origin.isWriteOf c) true).discardReadAhead c).answerAll c .aborted = s₂ at h₂ hq
  have h₃ : s₂.Serves (if breaks then s₂.breakLinks c .aborted else s₂) := by
    split
    · exact s₂.breakLinks_serves c _
    · exact .refl s₂
  generalize (if breaks then s₂.breakLinks c .aborted else s₂) = s₃ at h₃
  have hl : s₃.ContextLaw := ((h.quiet h₁).serves h₂).serves h₃
  refine ⟨(hl.lawBut c).setContext ?_, by simp, ?_, by simp⟩
  · dsimp only; split
    · simp
    · exact (hl c).1
  · simpa using List.suffix_nil.mp (hq ▸ h₃.service c)

/-- With its Launch Queue purged or empty an aborted context meets the law. -/
theorem State.ContextLaw.abort_idle {s : State} (h : s.ContextLaw) (c : Ctx) (breaks purge : Bool)
    (hq : ((s.abort c breaks purge).context c).launchQ = []) : (s.abort c breaks purge).ContextLaw := by
  obtain ⟨hbut, hs, hv, hr⟩ := h.abort c breaks purge
  exact hbut.contextLaw (.of_idle hs hq hv hr)

theorem State.abort_purged (s : State) (c : Ctx) (breaks : Bool) :
    ((s.abort c breaks true).context c).launchQ = [] := by simp [State.abort]

/-! ### Memory's answers -/

theorem State.ContextLaw.lineFailed {s : State} (h : s.ContextLaw) (c : Ctx) (n : BitVec 16) (l : Nat) (b : Bool)
    (why : FaultReason) (r : Reason) : (s.lineFailed c n l b why r).ContextLaw := by
  unfold State.lineFailed
  have hp := fun e => h.serves (s.post_serves e)
  dsimp only
  split
  · refine State.LawBut.faultContext (State.ContextLaw.lawBut ?_ c) why
    exact ((hp _).quiet (State.discardLines_quiet _ c)).quiet (State.detach_quiet _ _ _)
  · exact hp _

theorem State.ContextLaw.setEntry {s : State} (h : s.ContextLaw) (c : Ctx) (q : Nat) (st : EntryState) :
    (s.setEntry c q st).ContextLaw := h.quiet (State.setContext_quiet _ ⟨rfl, rfl, rfl, List.suffix_refl _⟩)

theorem State.ContextLaw.readFailed {s : State} (h : s.ContextLaw) (c : Ctx) (n : BitVec 16) (q : Nat) (r : Reason) :
    (s.readFailed c n q r).ContextLaw := by
  unfold State.readFailed; split
  · exact h
  · exact (h.setEntry _ _ _).serves (State.post_serves _ _)

theorem State.ContextLaw.readOkay {s : State} (h : s.ContextLaw) (c : Ctx) (q : Nat) (data : List Byte) :
    (s.readOkay c q data).ContextLaw := by
  unfold State.readOkay; split
  · exact h
  · split <;> exact h.setEntry _ _ _

theorem State.ContextLaw.hostOkay {s : State} (h : s.ContextLaw) (u : HostTag) (data : List Byte) :
    (s.hostOkay u data).ContextLaw := by
  unfold State.hostOkay; split
  · exact h
  · dsimp only; split
    · exact h
    · exact State.ContextLaw.serves (s := s.setSlot u _) h (State.answer_serves _ _ _)

theorem State.ContextLaw.deliver {s : State} (h : s.ContextLaw) (e : TrackEntry) (st : MemStatus) (data : List Byte) :
    (s.deliver e st data).ContextLaw := by
  unfold State.deliver
  split
  · exact h.hostOkay _ _
  · exact h.serves (s.answer_serves _ _)
  · split
    · exact h
    · exact h.readOkay _ _ _
  · split
    · exact h
    · exact h.readFailed _ _ _ _
  · split
    · exact h
    · exact h.drainIfDone _
  · exact h.lineFailed _ _ _ _ _ _

theorem State.ContextLaw.tellTimeout {s : State} (h : s.ContextLaw) (e : TrackEntry) : (s.tellTimeout e).ContextLaw := by
  unfold State.tellTimeout
  split
  · exact h.serves (s.answer_serves _ _)
  · split
    · exact h
    · exact h.readFailed _ _ _ _
  · exact h.lineFailed _ _ _ _ _ _

theorem State.ContextLaw.quarantine {s : State} (h : s.ContextLaw) (m : MemTag) (e : TrackEntry) :
    (s.quarantine m e).ContextLaw := by
  have hp : ((s.setTrack m (some { e with state := .quarantined })).post
      (s.trackRecord .memoryTimeout m e)).ContextLaw :=
    State.ContextLaw.serves (s := s.setTrack m _) h (State.post_serves _ _)
  unfold State.quarantine
  dsimp only
  split
  · have hp' (n : Nat) : State.ContextLaw { (s.setTrack m (some { e with state := .quarantined })).post
        (s.trackRecord .memoryTimeout m e) with choices := n } := hp
    split
    · exact ((hp' _).serves (State.post_serves _ _)).tellTimeout e
    · exact ((hp' _).tellTimeout e).serves (State.post_serves _ _)
  · exact hp.tellTimeout e

theorem State.ContextLaw.timeoutRequest {s : State} (h : s.ContextLaw) (m : MemTag) :
    (s.timeoutRequest m).ContextLaw := by
  unfold State.timeoutRequest
  split
  · split
    · exact h.quarantine _ _
    · exact h
  · exact h

theorem State.ContextLaw.response {s : State} (h : s.ContextLaw) (m : MemTag) (st : MemStatus) (data : List Byte) :
    (s.response m st data).ContextLaw := by
  unfold State.response
  split
  · exact h
  · split
    · exact h.serves (s.post_serves _)
    · dsimp only; split
      · exact State.ContextLaw.serves (s := s.setTrack m none) h (State.post_serves _ _)
      · exact (State.ContextLaw.deliver (s := s.setTrack m none) h _ _ _).settle

/-! ### Host requests, elements and timers -/

/-- A walk access joins the Service Queue of a running walk only (R35). -/
theorem State.ContextLaw.walkAccess {s : State} (h : s.ContextLaw) (t : HostTag) (c : Ctx) :
    (s.walkAccess t c).ContextLaw := by
  have append (hs : (s.context c).state = .active ∨ (s.context c).state = .draining) : (s.setContext c
      { s.context c with service := (s.context c).service ++ [t] }).ContextLaw := by
    obtain ⟨hlen, -, -, hreg⟩ := h c
    refine h.setContext ⟨hlen, fun e => ?_, fun e => ?_, hreg⟩ <;> rcases hs with hs | hs <;> simp [hs] at e
  unfold State.walkAccess
  dsimp only
  split
  · exact h.serves (s.answer_serves _ _)
  · exact h.serves (s.answer_serves _ _)
  · rename_i e; exact (append (.inl e)).serves (State.promote_serves _ c)
  · rename_i e; exact append (.inr e)

theorem State.ContextLaw.arrival {s : State} (h : s.ContextLaw) (r : HostRequest) : (s.arrival r).ContextLaw := by
  have slot (x : HostSlot) : (s.setSlot r.tag (some x)).ContextLaw := h
  unfold State.arrival
  split
  · exact h
  · split
    · exact h.serves (s.post_serves _)
    · refine State.ContextLaw.settle ?_
      unfold State.accept
      split
      · exact (slot _).serves (State.answer_serves _ _ _)
      · split
        · exact (slot _).serves (State.answer_serves _ _ _)
        · exact (slot _).walkAccess _ _
        · exact (slot _).quiet (State.passArrival_quiet _ r)

theorem Context.Quiet.trans {x y z : Context} (h : x.Quiet y) (k : y.Quiet z) : x.Quiet z :=
  ⟨k.state.trans h.state, k.launchQ.trans h.launchQ, k.region.trans h.region, k.service.trans h.service⟩

/-- Merging bytes touches the lines of a context only (R77). -/
theorem Context.mergeBytes_quiet (now : BitVec 32) (bytes : List (Nat × Byte)) (x : Context) :
    x.Quiet (x.mergeBytes now bytes) := by
  induction bytes generalizing x with
  | nil => exact .refl x
  | cons m ms ih =>
    refine Context.Quiet.trans ?_ (ih (x.mergeByte now m))
    unfold Context.mergeByte
    dsimp only
    split <;> exact x.quiet_lines _

theorem State.markStale_quiet (s : State) (hit : Span → Bool) : s.Quiet (s.markStale hit) :=
  State.mapContexts_quiet _ fun _ => ⟨rfl, rfl, rfl, List.suffix_refl _⟩

theorem State.moveElement_quiet (s : State) (c : Ctx) (k : Taking) : s.Quiet (s.moveElement c k) := by
  unfold State.moveElement
  dsimp only
  split
  · exact State.setContext_quiet (s.setSlot _ _) ⟨rfl, rfl, rfl, List.suffix_refl _⟩
  · refine State.Quiet.trans (State.setContext_quiet (s.setSlot _ _) ?_) (State.markStale_quiet _ _)
    exact (Context.mergeBytes_quiet _ _ _).trans (Context.quiet_lines _ _)

theorem State.advanceTake_quiet (s : State) (c : Ctx) (k : Taking) : s.Quiet (s.advanceTake c k) := by
  unfold State.advanceTake
  dsimp only
  have h : s.Quiet (s.setContext c { s.context c with
      take := (k.d.advance k.pos).1
      progress := (s.context c).progress + 1
      passes := if (k.d.advance k.pos).2 then (s.context c).passes + 1 else (s.context c).passes
      hold := .none
      shortfall := 0 }) := State.setContext_quiet _ ⟨rfl, rfl, rfl, List.suffix_refl _⟩
  split
  · exact h.trans (State.post_serves _ _).quiet
  · exact h

theorem State.cutHead_serves (s : State) (c : Ctx) (why : HostReason) : s.Serves (s.cutHead c why) := by
  unfold State.cutHead; split
  · exact s.finishHead_serves c _
  · exact .refl s

theorem State.ContextLaw.afterTake {s : State} (h : s.ContextLaw) {c : Ctx} (ha : (s.context c).state = .active) :
    (s.afterTake c).ContextLaw := by
  have hf : s.Serves (if s.demand c = 0 then s.finishHead c (s.headReason c) else s) := by
    split
    · exact s.finishHead_serves c _
    · exact .refl s
  unfold State.afterTake
  dsimp only
  generalize (if s.demand c = 0 then s.finishHead c (s.headReason c) else s) = s₁ at hf
  have cut (why : HostReason) (e : EndCause) : ((s₁.cutHead c why).endWalk c e).ContextLaw :=
    ((h.serves hf).serves (s₁.cutHead_serves c why)).endWalk
      (by rw [(s₁.cutHead_serves c why).state, hf.state, ha]) e
  split
  · exact cut _ _
  · split
    · exact cut _ _
    · exact (h.serves hf).serves (State.promote_serves _ c)

/-- An element waits in an ACTIVE context only (R37, R38). -/
theorem State.nextElement_active {s : State} {c : Ctx} {k : Taking} (h : s.nextElement c = some k) :
    (s.context c).state = .active := by
  unfold State.nextElement at h
  split at h
  · assumption
  · cases h

theorem State.ContextLaw.elementTake {s : State} (h : s.ContextLaw) (c : Ctx) : (s.elementTake c).ContextLaw := by
  unfold State.elementTake
  split
  · exact h.settle
  · rename_i k hk
    split
    · have hq := (s.moveElement_quiet c k).trans (State.advanceTake_quiet _ c k)
      refine ((h.quiet hq).afterTake ?_).settle
      rw [(hq c).state, State.nextElement_active hk]
    · exact h.settle

theorem State.finishEarly_serves (s : State) (c : Ctx) (why : HostReason) : s.Serves (s.finishEarly c why) :=
  (s.finishHead_serves c _).trans (State.promote_serves _ c)

theorem State.ContextLaw.expire {s : State} (h : s.ContextLaw) (i : Timer) : (s.expire i).ContextLaw := by
  cases i with
  | head c =>
    unfold State.expire; dsimp only; split
    · exact (h.serves (s.finishEarly_serves c _)).quiet (State.decideAfresh_resettled _).quiet
    · exact h
  | request m =>
    unfold State.expire; dsimp only; split
    · exact (h.timeoutRequest m).quiet (State.decideAfresh_resettled _).quiet
    · exact h

theorem State.ContextLaw.retime {s : State} (h : s.ContextLaw) (new : Settings) : (s.retime new).ContextLaw := by
  have ages (r : State) (old : Settings) : r.Quiet (r.ageLines old) := by
    unfold State.ageLines; split
    · exact State.mapContexts_quiet _ fun _ => Context.quiet_lines _ _
    · exact fun c => .refl _
  have folds (due : List Timer) (r : State) (hr : r.ContextLaw) : (due.foldl State.expire r).ContextLaw := by
    induction due generalizing r with
    | nil => exact hr
    | cons i due ih => exact ih _ (hr.expire i)
  unfold State.retime
  refine State.ContextLaw.quiet (folds _ _ ?_)
    (State.mapContexts_resettled _ _ fun _ => Context.orderIssuing_resettled _).quiet
  exact (State.ContextLaw.quiet (s := { s with settings := new, choices := s.choices + 1 }) h (ages _ _)).quiet
    (State.decideAfresh_resettled _).quiet

/-! ### The commands of the Management Link -/

/-- A command keeps the law if its owner does. -/
theorem State.ContextLaw.command {s : State} (h : s.ContextLaw) (k : Command) (b : Byte)
    {owner : List Byte → State → Reply} (ho : ∀ ps, (owner ps s).state.ContextLaw) :
    (s.command k b owner).ContextLaw := by
  unfold State.command
  split
  · exact ho _
  · exact h

theorem State.ContextLaw.queueWalk {s : State} (h : s.ContextLaw) (ps : List Byte) :
    (ownQueueWalk ps s).state.ContextLaw := by
  unfold ownQueueWalk
  split
  · rename_i c i _ _
    dsimp only
    split
    · exact ((h.lawBut c).launch i).settle
    · rename_i hs
      split
      · rename_i hlen
        obtain ⟨-, -, hfault, hreg⟩ := h c
        exact h.setContext ⟨by simp; omega, fun e => absurd e hs, hfault, hreg⟩
      · exact h
  · exact h

theorem State.ContextLaw.endWalkCommand {s : State} (h : s.ContextLaw) (ps : List Byte) :
    (ownEndWalk ps s).state.ContextLaw := by
  unfold ownEndWalk
  split
  · exact h
  · rename_i c _
    split
    · rename_i ha
      have hf : s.Serves (if s.partlyServed c then s.finishHead c (some .ended) else s) := by
        split
        · exact s.finishHead_serves c _
        · exact .refl s
      exact ((h.serves hf).endWalk (by rw [hf.state, ha]) _).settle
    · exact h

theorem State.ContextLaw.abortWalk {s : State} (h : s.ContextLaw) (ps : List Byte) :
    (ownAbortWalk ps s).state.ContextLaw := by
  unfold ownAbortWalk
  split
  · exact h
  · rename_i c _
    split
    · exact ((h.abort c _ _).1.launchNext fun e => h.abort_idle c _ _ e c).settle
    · exact h

theorem State.ContextLaw.clearFault {s : State} (h : s.ContextLaw) (ps : List Byte) :
    (ownClearFault ps s).state.ContextLaw := by
  unfold ownClearFault
  split
  · exact h
  · rename_i c _
    split
    · rename_i hs
      obtain ⟨hlen, -, hfault, hreg⟩ := h c
      refine (((h.lawBut c).setContext (x := { s.context c with state := .idle }) hlen).launchNext fun e => ?_).settle
      simp only [State.context_setContext_self] at e ⊢
      refine .of_idle rfl e (hfault hs) ?_
      simpa [hs, Option.isSome_iff_ne_none] using hreg
    · exact h

theorem State.ContextLaw.flushLines {s : State} (h : s.ContextLaw) (ps : List Byte) :
    (ownFlushLines ps s).state.ContextLaw := by
  unfold ownFlushLines
  split
  · exact h
  · exact (h.quiet (State.setContext_quiet _ (Context.quiet_lines _ _))).settle

theorem State.ContextLaw.softReset {s : State} (h : s.ContextLaw) (ps : List Byte) :
    (ownSoftReset ps s).state.ContextLaw := by
  have folds (cs : List Ctx) (r : State) (hr : r.ContextLaw) :
      (cs.foldl (fun s c => s.abort c false true) r).ContextLaw := by
    induction cs generalizing r with
    | nil => exact hr
    | cons c cs ih => exact ih _ (hr.abort_idle c _ _ (r.abort_purged c false))
  have arms : s.abortAll.armAll.ContextLaw := (folds allCtx s h).of_ctx rfl
  exact (arms.serves (State.post_serves _ _)).settle

theorem State.ContextLaw.setPacingCommand {s : State} (h : s.ContextLaw) (ps : List Byte) :
    (ownSetPacing ps s).state.ContextLaw := by
  unfold ownSetPacing
  split
  · split
    · exact h
    · exact (State.ContextLaw.serves (s := s.setPacing _ _) h (State.promote_serves _ _)).settle
  · exact h

theorem State.ContextLaw.clearPacingCommand {s : State} (h : s.ContextLaw) (ps : List Byte) :
    (ownClearPacing ps s).state.ContextLaw := by
  unfold ownClearPacing
  split
  · exact h
  · exact State.ContextLaw.settle (s := s.setPacing _ _) h

theorem State.ContextLaw.setTimersCommand {s : State} (h : s.ContextLaw) (ps : List Byte) :
    (ownSetTimers ps s).state.ContextLaw := by
  unfold ownSetTimers
  split
  · exact h.retime _
  · exact h

/-! ### The owners and events that touch no context -/

theorem State.writeDescEnd_ctx (s : State) (b : Byte) : (s.writeDescEnd b).ctx = s.ctx := by
  have hput (put : Option (DescIx × Descriptor)) : (s.putDesc put).ctx = s.ctx := by
    unfold State.putDesc; split <;> rfl
  unfold State.writeDescEnd
  split
  · split
    · rfl
    · exact hput _
  · rfl

theorem State.linkByte_ctx (s : State) (b : Byte) : (s.linkByte b).ctx = s.ctx := by
  have hput (put : Option (DescIx × Descriptor)) : (s.putDesc put).ctx = s.ctx := by
    unfold State.putDesc; split <;> rfl
  unfold State.linkByte
  dsimp only
  split
  · rfl
  · rfl
  · rfl
  · rfl
  · split
    · rfl
    · split <;> rfl
  · split
    · split
      · rfl
      · exact hput _
    · split <;> rfl

theorem State.frameBegin_ctx (s : State) : s.frameBegin.ctx = s.ctx := by
  unfold State.frameBegin
  split
  · rfl
  · split <;> rfl

theorem ownReadDesc_ctx (ps : List Byte) (s : State) : (ownReadDesc ps s).state.ctx = s.ctx := by
  unfold ownReadDesc; split <;> rfl

theorem ownClearDesc_ctx (ps : List Byte) (s : State) : (ownClearDesc ps s).state.ctx = s.ctx := by
  unfold ownClearDesc; split <;> rfl

theorem ownSetAperture_ctx (ps : List Byte) (s : State) : (ownSetAperture ps s).state.ctx = s.ctx := by
  unfold ownSetAperture
  split
  · split <;> rfl
  · rfl

theorem ownReadAperture_ctx (ps : List Byte) (s : State) : (ownReadAperture ps s).state.ctx = s.ctx := by
  unfold ownReadAperture; split <;> rfl

theorem ownReadContext_ctx (ps : List Byte) (s : State) : (ownReadContext ps s).state.ctx = s.ctx := by
  unfold ownReadContext; split <;> rfl

theorem ownReadPacing_ctx (ps : List Byte) (s : State) : (ownReadPacing ps s).state.ctx = s.ctx := by
  unfold ownReadPacing; split <;> rfl

theorem ownPopEvent_ctx (ps : List Byte) (s : State) : (ownPopEvent ps s).state.ctx = s.ctx := by
  unfold ownPopEvent
  split
  · rfl
  · unfold State.removeOldest; split <;> rfl

theorem ownPeekEvent_ctx (ps : List Byte) (s : State) : (ownPeekEvent ps s).state.ctx = s.ctx := by
  unfold ownPeekEvent; split <;> rfl

theorem ownSetAttentionMask_ctx (ps : List Byte) (s : State) : (ownSetAttentionMask ps s).state.ctx = s.ctx := by
  unfold ownSetAttentionMask; split <;> rfl

theorem State.issueNext_ctx (s : State) : s.issueNext.ctx = s.ctx := by
  unfold State.issueNext; split <;> rfl

theorem State.responseSent_ctx (s : State) : s.responseSent.ctx = s.ctx := by
  unfold State.responseSent; split <;> rfl

/-! ### Admissions and ages -/

theorem State.admitPassthrough_quiet (s : State) (u : HostTag) (x : HostSlot) : s.Quiet (s.admitPassthrough u x) := by
  have h : s.Quiet { s.enqueue 0 (x.req.iqEntry u) with fifo := s.fifo.tail } := .of_ctx rfl
  unfold State.admitPassthrough
  split
  · exact h
  · exact h.trans (State.markStale_quiet _ _)

theorem State.ContextLaw.passthroughAdmission {s : State} (h : s.ContextLaw) : s.passthroughAdmission.ContextLaw := by
  unfold State.passthroughAdmission
  split
  · split
    · exact (h.quiet (s.admitPassthrough_quiet _ _)).settle
    · exact h
  · exact h

theorem State.ContextLaw.readAheadAdmission {s : State} (h : s.ContextLaw) (c : Ctx) :
    (s.readAheadAdmission c).ContextLaw := by
  unfold State.readAheadAdmission
  split
  · split
    · exact (State.ContextLaw.setEntry (s := s.enqueue _ _) h _ _ _).settle
    · exact h
  · exact h

theorem State.dropLine_quiet (s : State) (c : Ctx) (k : Fin 4) : s.Quiet (s.dropLine c k) :=
  s.setContext_quiet ⟨rfl, rfl, rfl, List.suffix_refl _⟩

theorem State.ContextLaw.gatherLineAdmission {s : State} (h : s.ContextLaw) (c : Ctx) :
    (s.gatherLineAdmission c).ContextLaw := by
  unfold State.gatherLineAdmission
  split
  · split
    · exact (State.ContextLaw.quiet (s := s.enqueue _ _) h (State.dropLine_quiet _ c _)).settle
    · exact h
  · exact h

theorem State.ContextLaw.gatherAgeExpiry {s : State} (h : s.ContextLaw) (c : Ctx) (p : GatherLine → Bool) :
    (s.issueLines c p).settle.ContextLaw :=
  (h.quiet (s.setContext_quiet (Context.quiet_lines _ _))).settle

/-- A record of the reset state meets the law (R22). -/
theorem Context.reset_stateLaw : Context.reset.StateLaw := .of_idle rfl rfl rfl rfl

theorem State.reset_context (c : Ctx) : State.reset.context c = Context.reset := by
  simp [State.context, State.reset, Vector.get_eq_getElem]

theorem State.reset_contextLaw : State.reset.ContextLaw := fun c => State.reset_context c ▸ Context.reset_stateLaw

/-- A condition that decides whether an event happens. -/
theorem State.ContextLaw.ite {s t : State} (h : s.ContextLaw) (p : Prop) [Decidable p] (ht : t.ContextLaw) :
    (if p then t else s).ContextLaw := by split <;> assumption

/-- Every command keeps the context law: it answers a state, and that state meets Table 8. -/
theorem exec_contextLaw (i : Instr) (s : State) (h : s.ContextLaw) : ∃ t, exec i s = .next t ∧ t.ContextLaw := by
  have owner (k : Command) (b : Byte) {own : List Byte → State → Reply} (e : ∀ ps, (own ps s).state.ctx = s.ctx) :
      (s.command k b own).ContextLaw := h.command k b fun ps => h.of_ctx (e ps)
  cases i with
  | hardwareReset => exact ⟨_, rfl, State.reset_contextLaw.of_ctx rfl⟩
  | rstRise => exact ⟨_, rfl, h⟩
  | timebaseTick => exact ⟨_, rfl, by split <;> exact h⟩
  | hostRequestArrival r => exact ⟨_, rfl, h.arrival r⟩
  | hostResponseSent => exact ⟨_, rfl, h.of_ctx s.responseSent_ctx⟩
  | elementTake c => exact ⟨_, rfl, h.elementTake c⟩
  | drainComplete c => exact ⟨_, rfl, h.ite _ (h.completeDrain c).settle⟩
  | passthroughAdmission => exact ⟨_, rfl, h.passthroughAdmission⟩
  | readAheadAdmission c => exact ⟨_, rfl, h.readAheadAdmission c⟩
  | gatherLineAdmission c => exact ⟨_, rfl, h.gatherLineAdmission c⟩
  | issue => exact ⟨_, rfl, h.of_ctx s.issueNext_ctx⟩
  | memoryRequestTaken => exact ⟨_, rfl, h⟩
  | memoryResponse m st data => exact ⟨_, rfl, h.response m st data⟩
  | memoryTimeout m => exact ⟨_, rfl, h.ite _ (h.timeoutRequest m).settle⟩
  | gatherAgeExpiry c line => exact ⟨_, rfl, h.ite _ (h.gatherAgeExpiry c _)⟩
  | paceTimeout c => exact ⟨_, rfl, h.ite _ (h.serves (s.finishEarly_serves c _)).settle⟩
  | frameEnd => exact ⟨_, rfl, h⟩
  | unknownCommand => exact ⟨_, rfl, by split <;> exact h⟩
  | identify => exact ⟨_, rfl, owner _ _ fun _ => rfl⟩
  | writeDesc b => exact ⟨_, rfl, h.of_ctx (s.writeDescEnd_ctx b)⟩
  | readDesc => exact ⟨_, rfl, owner _ _ fun ps => ownReadDesc_ctx ps s⟩
  | clearDesc => exact ⟨_, rfl, owner _ _ fun ps => ownClearDesc_ctx ps s⟩
  | setAperture => exact ⟨_, rfl, owner _ _ fun ps => ownSetAperture_ctx ps s⟩
  | readAperture => exact ⟨_, rfl, owner _ _ fun ps => ownReadAperture_ctx ps s⟩
  | queueWalk => exact ⟨_, rfl, h.command _ _ h.queueWalk⟩
  | endWalk => exact ⟨_, rfl, h.command _ _ h.endWalkCommand⟩
  | abortWalk => exact ⟨_, rfl, h.command _ _ h.abortWalk⟩
  | clearFault => exact ⟨_, rfl, h.command _ _ h.clearFault⟩
  | flushLines => exact ⟨_, rfl, h.command _ _ h.flushLines⟩
  | readContext => exact ⟨_, rfl, owner _ _ fun ps => ownReadContext_ctx ps s⟩
  | setPacing => exact ⟨_, rfl, h.command _ _ h.setPacingCommand⟩
  | clearPacing => exact ⟨_, rfl, h.command _ _ h.clearPacingCommand⟩
  | readPacing => exact ⟨_, rfl, owner _ _ fun ps => ownReadPacing_ctx ps s⟩
  | setTimers => exact ⟨_, rfl, h.command _ _ h.setTimersCommand⟩
  | readTimers => exact ⟨_, rfl, owner _ _ fun _ => rfl⟩
  | popEvent => exact ⟨_, rfl, owner _ _ fun ps => ownPopEvent_ctx ps s⟩
  | peekEvent => exact ⟨_, rfl, owner _ _ fun ps => ownPeekEvent_ctx ps s⟩
  | readEventStatus => exact ⟨_, rfl, owner _ _ fun _ => rfl⟩
  | setAttentionMask => exact ⟨_, rfl, owner _ _ fun ps => ownSetAttentionMask_ctx ps s⟩
  | softReset => exact ⟨_, rfl, h.command _ _ h.softReset⟩
  | frameBegin => exact ⟨_, rfl, h.of_ctx s.frameBegin_ctx⟩
  | linkByteComplete b => exact ⟨_, rfl, h.of_ctx (s.linkByte_ctx b)⟩

/-- Settles O55: a step is a command on the state with the queue's rest, or idles. -/
theorem everyStepKeepsContextLaw : Obligations.EveryStepKeepsContextLaw := by
  intro s t h e
  unfold step at e
  split at e
  · obtain rfl := Host.Outcome.next.inj e; exact h
  · rename_i i rest _
    obtain ⟨u, hu, law⟩ := exec_contextLaw i { s with pending := rest } h
    obtain rfl := Host.Outcome.next.inj (hu.symm.trans e)
    exact law

end Sys2Proof.Machine
end

section
/-! The law of `settle` in full: the entries it creates, the lines it flushes, the issuing order (`State.Settles`) and
the holds (`State.HoldsAfresh`). -/

namespace Sys2Proof.Machine

open Sys2Proof

/-- Every context stands in the list of contexts. -/
theorem mem_allCtx (c : Ctx) : c ∈ allCtx := by revert c; decide

/-! ### What a resettling leaves of the views over the state -/

section Views

variable {s t : State} (h : s.Resettled t)
include h

theorem State.Resettled.snapshot (c : Ctx) : (t.context c).snapshot = (s.context c).snapshot := by
  rw [(h.contexts c).rest]

theorem State.Resettled.take (c : Ctx) : (t.context c).take = (s.context c).take := by rw [(h.contexts c).rest]

theorem State.Resettled.headChecked (c : Ctx) : (t.context c).headChecked = (s.context c).headChecked := by
  rw [(h.contexts c).rest]

theorem State.Resettled.serial (c : Ctx) : (t.context c).serial = (s.context c).serial := by rw [(h.contexts c).rest]

theorem State.Resettled.endCause (c : Ctx) : (t.context c).endCause = (s.context c).endCause := by
  rw [(h.contexts c).rest]

theorem State.Resettled.faultReason (c : Ctx) : (t.context c).faultReason = (s.context c).faultReason := by
  rw [(h.contexts c).rest]

theorem State.Resettled.descIndex (c : Ctx) : (t.context c).descIndex = (s.context c).descIndex := by
  rw [(h.contexts c).rest]

theorem State.Resettled.links : t.links = s.links := by rw [h.rest]

theorem State.Resettled.timebase : t.timebase = s.timebase := by rw [h.rest]

theorem State.Resettled.head (c : Ctx) : t.head c = s.head c := by
  simp only [State.head, h.service c, h.slot]

theorem State.Resettled.demand (c : Ctx) : t.demand c = s.demand c := by
  simp only [State.demand, h.headChecked c, h.head c]

theorem State.Resettled.linkLost (c : Ctx) : t.linkLost c = s.linkLost c := by
  simp only [State.linkLost, h.state c, h.pacing c]

theorem State.Resettled.followerMay (c : Ctx) (l : PacingLink) : t.followerMay c l = s.followerMay c l := by
  simp only [State.followerMay, h.progress]

theorem State.Resettled.leadHolds (c f : Ctx) : t.leadHolds c f = s.leadHolds c f := by
  unfold State.leadHolds
  rw [h.pacing]
  cases s.pacing f <;> simp only [h.state, h.progress]

theorem State.Resettled.paceStep (c : Ctx) : t.paceStep c = s.paceStep c := by
  simp only [State.paceStep, h.linkLost c, h.state c, h.pacing c, h.followerMay, h.leadHolds]

theorem State.Resettled.nextElement (c : Ctx) : t.nextElement c = s.nextElement c := by
  simp only [State.nextElement, h.state c, h.snapshot c, h.take c, h.head c, h.demand c]

end Views

/-! ### Created entries (R55, R57 to R59) -/

/-- Creating `n` entries adds the elements at the cursor, `n` of them or as many as the walk still yields. -/
theorem Context.createEntries_created (d : Descriptor) (n : Nat) (x : Context) :
    x.Created d (x.createEntries d n)
      ∧ (x.createEntries d n).entries.length ≤ x.entries.length + n
      ∧ (x.entries.length + n ≤ (x.createEntries d n).entries.length
        ∨ (x.createEntries d n).cursor = .exhausted) := by
  have none_left (x : Context) : x.Created d x :=
    ⟨by simp [Descriptor.ahead], fun i e h => by simp at h⟩
  induction n generalizing x with
  | zero => exact ⟨none_left x, le_rfl, .inl le_rfl⟩
  | succ n ih =>
    unfold Context.createEntries
    split
    · rename_i hx; exact ⟨none_left x, by omega, .inr hx⟩
    · rename_i p hp
      dsimp only
      generalize he : Entry.mk (x.progress + x.entries.length) (d.address p).toNat
        (elementSpan (d.address p).toNat d.memWidth) (d.ordinal p) EntryState.pending = e
      generalize hx' : ({ x with entries := x.entries ++ [e], cursor := (d.advance p).1 } : Context) = x'
      have hlen : x'.entries.length = x.entries.length + 1 := by simp [← hx']
      have hcur : x'.cursor = (d.advance p).1 := by simp [← hx']
      have hprog : x'.progress = x.progress := by simp [← hx']
      obtain ⟨created, hle, hge⟩ := ih x'
      have hpre := (Context.createEntries_rest d n x').2
      refine ⟨⟨?_, fun i a ha => ?_⟩, by omega, hge.imp (by omega) id⟩
      · have := hpre.length_le
        have step : (Context.createEntries d n x').entries.length - x.entries.length
            = ((Context.createEntries d n x').entries.length - x'.entries.length) + 1 := by omega
        rw [created.cursor, step, hp, hcur, Descriptor.ahead]
      · rw [hp]
        cases i with
        | zero =>
          have h₀ : x'.entries[x.entries.length]? = some e := by simp [← hx']
          obtain ⟨more, hmore⟩ := hpre
          rw [← hmore, Nat.add_zero, List.getElem?_append_left (by omega), h₀] at ha
          obtain rfl := Option.some.inj ha
          exact ⟨p, rfl, by simp [← he], by simp [← he], by simp [← he], by simp [← he],
            by simp [← he, elementSpan, beatOf]⟩
        | succ i =>
          obtain ⟨q, hq, haddr, hord, hst, hseq, hspan⟩ :=
            created.entry i a (by rw [hlen]; convert ha using 2; omega)
          refine ⟨q, ?_, haddr, hord, hst, ?_, hspan⟩
          · rw [Descriptor.ahead, ← hcur, hq]
          · rw [hseq, hprog]; omega

@[simp] theorem State.fill_context (s : State) (c : Ctx) : s.fill.context c = s.fillContext c (s.context c) := by
  simp [State.fill]

/-- A read walk that is ACTIVE is brought up to its fill target. -/
theorem State.fillContext_read {s : State} {c : Ctx} {d : Descriptor} (ha : (s.context c).state = .active)
    (hd : (s.context c).snapshot = some d) (hr : d.direction = .read) :
    s.fillContext c (s.context c)
      = (s.context c).createEntries d (s.fillTarget c d - (s.context c).entries.length) := by
  simp [State.fillContext, ha, hd, hr]

/-- No other context gets entries. -/
theorem State.fillContext_other {s : State} {c : Ctx} {x : Context}
    (h : x.state ≠ .active ∨ x.snapshot.map Descriptor.direction ≠ some .read) : s.fillContext c x = x := by
  unfold State.fillContext
  split
  · rename_i d ha hd
    have : d.direction ≠ .read := by simpa [ha, hd] using h
    simp [this]
  · rfl

theorem State.fillTarget_eq (s : State) (c : Ctx) (d : Descriptor) :
    s.fillTarget c d = min 8 (min ((s.context c).left d) (d.readAhead + s.demand c)) := rfl

/-! ### Flushed lines (R61) -/

@[simp] theorem GatherLine.issue_span (l : GatherLine) : l.issue.span = l.span := rfl
@[simp] theorem GatherLine.issue_addr (l : GatherLine) : l.issue.addr = l.addr := rfl
@[simp] theorem GatherLine.issue_slot (l : GatherLine) : l.issue.slot = l.slot := rfl
@[simp] theorem GatherLine.issue_state (l : GatherLine) : l.issue.state = .issuing := rfl

theorem State.flushHazards_context (s : State) (c : Ctx) : s.flushHazards.context c =
    { s.context c with
      lines := (s.context c).lines.map fun l => if s.overCandidate l then l.issue else l } := by
  simp [State.flushHazards, State.overCandidate]

/-- The candidates, and so what lies over one, depend on the entries only. -/
theorem State.overCandidate_congr {s t : State} (h : ∀ c, (t.context c).entries = (s.context c).entries)
    (l : GatherLine) : t.overCandidate l = s.overCandidate l := by
  simp only [State.overCandidate, Context.candidate, h]

/-! ### Holds (R39, R77, R78, R103) -/

/-- Deciding a hold sets the hold, its start time, the shortfall and, where the element waits with hold LINE, the
lines. -/
structure Context.Held (x y : Context) (now : BitVec 32) : Prop where
  rest : y = { x with hold := y.hold, holdStart := y.holdStart, lines := y.lines, shortfall := y.shortfall }
  start : y.holdStart = if (y.hold = .pace ∨ y.hold = .lead) ∧ y.hold ≠ x.hold then now else x.holdStart
  lines : y.hold ≠ .line → y.lines = x.lines
  mem : ∀ l ∈ y.lines, l ∈ x.lines ∨ l.state = .issuing

theorem Context.withHold_held (x : Context) (now : BitVec 32) (h : Hold) : x.Held (x.withHold now h) now := by
  refine ⟨rfl, ?_, fun _ => rfl, fun l hl => .inl hl⟩
  simp [Context.withHold, ne_comm]

/-- A line after evictions stood before them or is ISSUING. -/
theorem mem_of_mem_evict {n : Nat} {need : List Nat} {ls : List GatherLine} {l : GatherLine} (h : l ∈ evict n need ls) :
    l ∈ ls ∨ l.state = .issuing := by
  induction ls generalizing n with
  | nil => cases n <;> exact .inl h
  | cons a ls ih =>
    cases n with
    | zero => exact .inl h
    | succ n =>
      unfold evict at h
      split at h <;> rcases List.mem_cons.mp h with rfl | h
      · exact .inr rfl
      · exact (ih h).imp (List.mem_cons_of_mem _) id
      · exact .inl (List.mem_cons_self ..)
      · exact (ih h).imp (List.mem_cons_of_mem _) id

theorem Context.waitForLines_held (x : Context) (now : BitVec 32) (n k : Nat) (need : List Nat) :
    x.Held { x.withHold now .line with lines := evict n need x.lines, shortfall := k } now where
  rest := rfl
  start := by simp [Context.withHold]
  lines := fun h => absurd rfl h
  mem := fun _ => mem_of_mem_evict

theorem Context.clearShortfall_held (x : Context) (now : BitVec 32) :
    x.Held { x.withHold now .none with shortfall := 0 } now :=
  ⟨rfl, by simp [Context.withHold], fun _ => rfl, fun _ hl => .inl hl⟩

theorem Context.stepTwo_held (x : Context) (now : BitVec 32) : x.Held (x.stepTwo now) now := by
  unfold Context.stepTwo
  split
  · split
    · generalize x.entries.head?.map Entry.state = st
      rcases st with _ | e
      · exact x.withHold_held now _
      · cases e <;> exact x.withHold_held now _
    · dsimp only
      split
      · exact x.clearShortfall_held now
      · exact x.waitForLines_held now _ _ _
  · exact x.withHold_held now _

theorem State.decideHold_held (s : State) (c : Ctx) (x : Context) : x.Held (s.decideHold c x) s.timebase := by
  unfold State.decideHold
  split
  · exact x.withHold_held _ _
  · split
    · split
      · exact x.withHold_held _ _
      · exact x.withHold_held _ _
      · exact x.withHold_held _ _
      · exact x.stepTwo_held _
    · exact x.withHold_held _ _
  · exact x.withHold_held _ _

/-! ### `settle` -/

/-- The state in which `settle` decides the holds. -/
theorem State.fillFlush_resettled (s : State) : s.Resettled s.fill.flushHazards :=
  s.fill_resettled.trans s.fill.flushHazards_resettled

@[simp] theorem State.flushHazards_entries (s : State) (c : Ctx) :
    (s.flushHazards.context c).entries = (s.context c).entries := by rw [State.flushHazards_context]

@[simp] theorem State.flushHazards_cursor (s : State) (c : Ctx) :
    (s.flushHazards.context c).cursor = (s.context c).cursor := by rw [State.flushHazards_context]

theorem State.settle_held (s : State) (c : Ctx) : (s.fill.flushHazards.context c).Held
    (s.fill.flushHazards.decideHold c (s.fill.flushHazards.context c)) s.timebase := State.decideHold_held _ _ _

theorem State.settle_entries (s : State) (c : Ctx) :
    (s.settle.context c).entries = (s.fillContext c (s.context c)).entries := by
  have h : (s.settle.context c).entries = (s.fill.flushHazards.context c).entries := by
    rw [s.settle_context, Context.orderIssuing, (s.settle_held c).rest]
  simpa using h

theorem State.settle_cursor (s : State) (c : Ctx) :
    (s.settle.context c).cursor = (s.fillContext c (s.context c)).cursor := by
  have h : (s.settle.context c).cursor = (s.fill.flushHazards.context c).cursor := by
    rw [s.settle_context, Context.orderIssuing, (s.settle_held c).rest]
  simpa using h

theorem State.settle_overCandidate (s : State) (l : GatherLine) :
    s.settle.overCandidate l = s.fill.overCandidate l :=
  State.overCandidate_congr (fun c => by rw [s.settle_entries, s.fill_context]) l

/-- The lines on which the holds are decided: those over a candidate are ISSUING (R61). -/
theorem State.fillFlush_lines (s : State) (c : Ctx) : (s.fill.flushHazards.context c).lines =
    (s.context c).lines.map fun l => if s.settle.overCandidate l then l.issue else l := by
  rw [s.fill.flushHazards_context, s.fill_context, (s.fillContext_rest c _).1]
  simp only [s.settle_overCandidate]

theorem State.fillFlush_issuing (s : State) (c : Ctx) :
    (s.fill.flushHazards.context c).issuing = (s.context c).issuing := by
  rw [s.fill.flushHazards_context, s.fill_context, (s.fillContext_rest c _).1]

theorem State.fillFlush_hold (s : State) (c : Ctx) :
    (s.fill.flushHazards.context c).hold = (s.context c).hold := by
  rw [s.fill.flushHazards_context, s.fill_context, (s.fillContext_rest c _).1]

theorem State.fillFlush_holdStart (s : State) (c : Ctx) :
    (s.fill.flushHazards.context c).holdStart = (s.context c).holdStart := by
  rw [s.fill.flushHazards_context, s.fill_context, (s.fillContext_rest c _).1]

theorem State.fillFlush_shortfall (s : State) (c : Ctx) :
    (s.fill.flushHazards.context c).shortfall = (s.context c).shortfall := by
  rw [s.fill.flushHazards_context, s.fill_context, (s.fillContext_rest c _).1]

@[simp] theorem Context.orderIssuing_hold (x : Context) : x.orderIssuing.hold = x.hold := rfl
@[simp] theorem Context.orderIssuing_lines (x : Context) : x.orderIssuing.lines = x.lines := rfl

/-- THE law of `settle` in full (R39, R58, R59, R61, R79). -/
theorem State.settle_settles (s : State) : s.Settles s.settle where
  resettled := s.settle_resettled
  filled := fun c d ha hd hr => by
    obtain ⟨created, hle, hge⟩ := (s.context c).createEntries_created d
      (s.fillTarget c d - (s.context c).entries.length)
    rw [← State.fillContext_read ha hd hr, ← s.settle_entries] at hle hge
    rw [← State.fillContext_read ha hd hr] at created
    rw [← s.settle_cursor] at hge
    rw [s.fillTarget_eq] at hle hge
    refine ⟨⟨?_, ?_⟩, by omega, hge.imp (by omega) id⟩
    · rw [s.settle_cursor, s.settle_entries]; exact created.cursor
    · rw [s.settle_entries]; exact created.entry
  unfilled := fun c h => by
    rw [s.settle_entries, s.settle_cursor, State.fillContext_other h]
    exact ⟨rfl, rfl⟩
  flushed := fun c l hl hover => by
    rw [s.settle_context, Context.orderIssuing_lines] at hl
    rcases (s.settle_held c).mem l hl with hl | hl
    · rw [s.fillFlush_lines] at hl
      obtain ⟨l₀, -, rfl⟩ := List.mem_map.mp hl
      by_cases h₀ : s.settle.overCandidate l₀ = true
      · simp [h₀]
      · simp [h₀] at hover
    · exact hl
  lines := fun c hc => by
    rw [s.settle_context, Context.orderIssuing_hold] at hc
    rw [s.settle_context, Context.orderIssuing_lines, (s.settle_held c).lines hc, s.fillFlush_lines]
  order := fun c => by
    have hi : (s.fill.flushHazards.decideHold c (s.fill.flushHazards.context c)).issuing = (s.context c).issuing := by
      rw [(s.settle_held c).rest, s.fillFlush_issuing]
    rw [s.settle_context]
    simp only [Context.orderIssuing, hi]

/-- The hold start time after `settle` (R39). -/
theorem State.settle_holdStart (s : State) (c : Ctx) : (s.settle.context c).holdStart =
    if ((s.settle.context c).hold = .pace ∨ (s.settle.context c).hold = .lead)
      ∧ (s.settle.context c).hold ≠ (s.context c).hold then s.timebase else (s.context c).holdStart := by
  have h := (s.settle_held c).start
  rw [s.fillFlush_hold, s.fillFlush_holdStart] at h
  rw [s.settle_context]
  exact h

/-! ### The pacing step in the words of the rules (R100, R101, R103) -/

/-- An ACTIVE context follows a BROKEN link. -/
theorem State.linkLost_iff {s : State} {c : Ctx} (ha : (s.context c).state = .active) :
    s.linkLost c = true ↔ ∃ l, s.pacing c = some l ∧ l.state = .broken := by
  cases h : s.pacing c <;> simp [State.linkLost, ha, h]

theorem State.behind_iff {s : State} {c : Ctx} :
    ((s.pacing c).any fun l => l.state == .armed && !s.followerMay c l) = true ↔ s.Behind c := by
  cases h : s.pacing c <;> simp [State.Behind, State.followerMay, h]

theorem State.leadHolds_iff {s : State} {c f : Ctx} : s.leadHolds c f = true ↔ ∃ l n, s.pacing f = some l ∧ l.leader = c
    ∧ l.state = .armed ∧ (s.context f).state = .active ∧ l.lead = some n
    ∧ (s.context f).progress + n ≤ (s.context c).progress := by
  unfold State.leadHolds
  cases h : s.pacing f with
  | none => simp
  | some l => cases hl : l.lead <;> simp [hl, and_assoc]

theorem State.leadLimited_iff {s : State} {c : Ctx} : (allCtx.any fun f => s.leadHolds c f) = true ↔ s.LeadLimited c := by
  simp only [List.any_eq_true, State.leadHolds_iff, State.LeadLimited, mem_allCtx, true_and]

section PaceStep

variable {s : State} {c : Ctx} (ha : (s.context c).state = .active) (hl : s.linkLost c = false)
include ha hl

theorem State.paceStep_of_behind (hb : s.Behind c) : s.paceStep c = .pace := by
  rw [← State.behind_iff] at hb
  simp [State.paceStep, hl, ha, hb]

theorem State.paceStep_of_leadLimited (hb : ¬ s.Behind c) (hm : s.LeadLimited c) : s.paceStep c = .lead := by
  rw [← State.behind_iff] at hb
  rw [← State.leadLimited_iff] at hm
  simp only [State.paceStep, hl, ha, hb, hm]
  simp

theorem State.paceStep_of_free (hb : ¬ s.Behind c) (hm : ¬ s.LeadLimited c) : s.paceStep c = .pass := by
  rw [← State.behind_iff] at hb
  rw [← State.leadLimited_iff] at hm
  simp only [State.paceStep, hl, ha, hb, hm]
  simp

end PaceStep

/-- The pacing step lets the element go on exactly when nothing of R103 holds it. -/
theorem State.paceStep_pass_iff {s : State} {c : Ctx} (ha : (s.context c).state = .active) :
    s.paceStep c = .pass ↔ s.linkLost c = false ∧ ¬ s.Behind c ∧ ¬ s.LeadLimited c := by
  refine ⟨fun h => ?_, fun ⟨hl, hb, hm⟩ => State.paceStep_of_free ha hl hb hm⟩
  have hl : s.linkLost c = false := by
    cases hn : s.linkLost c with
    | false => rfl
    | true => simp [State.paceStep, hn] at h
  refine ⟨hl, fun hb => ?_, fun hm => ?_⟩
  · rw [State.paceStep_of_behind ha hl hb] at h; cases h
  · by_cases hb : s.Behind c
    · rw [State.paceStep_of_behind ha hl hb] at h; cases h
    · rw [State.paceStep_of_leadLimited ha hl hb hm] at h; cases h

/-! ### The hold of a head that waits for an element -/

/-- What an element that waits tells of its context (R37, R38). -/
structure State.Waiting (s : State) (c : Ctx) (k : Taking) : Prop where
  active : (s.context c).state = .active
  snapshot : (s.context c).snapshot = some k.d
  take : (s.context c).take = .at k.pos
  head : s.head c = some (k.tag, k.head)
  demand : 0 < s.demand c

theorem State.waiting_of_nextElement {s : State} {c : Ctx} {k : Taking} (h : s.nextElement c = some k) :
    s.Waiting c k := by
  unfold State.nextElement at h
  split at h
  · rename_i d p t x ha hd hp hh
    split at h
    · rename_i hdem
      obtain rfl := Option.some.inj h
      exact ⟨ha, hd, hp, hh, hdem⟩
    · cases h
  · cases h

variable {s : State} {c : Ctx} {k : Taking}

theorem State.Waiting.resettled {t : State} (h : s.Waiting c k) (r : s.Resettled t) : t.Waiting c k :=
  ⟨by rw [r.state, h.active], by rw [r.snapshot, h.snapshot], by rw [r.take, h.take], by rw [r.head, h.head],
    by rw [r.demand]; exact h.demand⟩

/-- The hold of a waiting head is the pacing step's, or step 2 decides it (R103). -/
theorem State.Waiting.decideHold (h : s.Waiting c k) {x : Context} (hx : x.state = .active) :
    (s.paceStep c = .pace → s.decideHold c x = x.withHold s.timebase .pace)
    ∧ (s.paceStep c = .lead → s.decideHold c x = x.withHold s.timebase .lead)
    ∧ (s.paceStep c = .pass → s.decideHold c x = x.stepTwo s.timebase) := by
  refine ⟨fun e => ?_, fun e => ?_, fun e => ?_⟩ <;> simp [State.decideHold, hx, h.demand, e]

/-- Step 2 of a read element: hold NONE when the oldest entry is FILLED or POISONED, DATA otherwise (R69). -/
theorem Context.stepTwo_read {x : Context} {d : Descriptor} {p : Vector Nat 4} (hd : x.snapshot = some d)
    (hp : x.take = .at p) (hr : d.direction = .read) (now : BitVec 32) :
    (x.stepTwo now).hold = if x.dataOrSpace d p then .none else .data := by
  unfold Context.stepTwo Context.dataOrSpace
  rw [hd, hp]
  dsimp only
  rw [hr]
  dsimp only
  generalize x.entries.head?.map Entry.state = st
  rcases st with _ | e
  · rfl
  · cases e <;> rfl

theorem Context.dataOrSpace_read {x : Context} {d : Descriptor} {p : Vector Nat 4} (hr : d.direction = .read) :
    x.dataOrSpace d p = true ↔ ∃ e rest, x.entries = e :: rest ∧
      ((∃ data, e.state = .filled data) ∨ e.state = .poisoned) := by
  unfold Context.dataOrSpace
  cases hx : x.entries with
  | nil => simp [hr]
  | cons e rest => cases he : e.state <;> simp [hr, he]

/-- Step 2 of a write element that finds room (R77). -/
theorem Context.stepTwo_room {x : Context} {d : Descriptor} {p : Vector Nat 4} (hd : x.snapshot = some d)
    (hp : x.take = .at p) (hw : d.direction = .write) (now : BitVec 32)
    (hk : x.lacking (d.linesNeeded (d.address p).toNat) = 0) :
    x.stepTwo now = { x.withHold now .none with shortfall := 0 } := by
  unfold Context.stepTwo
  simp only [hd, hp, hw, hk, if_true]

/-- Step 2 of a write element that lacks slots, with its evictions (R78). -/
theorem Context.stepTwo_lacking {x : Context} {d : Descriptor} {p : Vector Nat 4} (hd : x.snapshot = some d)
    (hp : x.take = .at p) (hw : d.direction = .write) (now : BitVec 32)
    (hk : x.lacking (d.linesNeeded (d.address p).toNat) ≠ 0) :
    x.stepTwo now = { x.withHold now .line with
      lines := evict (x.lacking (d.linesNeeded (d.address p).toNat) - x.shortfall)
        (d.linesNeeded (d.address p).toNat) x.lines
      shortfall := x.lacking (d.linesNeeded (d.address p).toNat) } := by
  unfold Context.stepTwo
  simp only [hd, hp, hw, hk, if_false]

/-- Evictions spare the OPEN lines that the element uses (R78). -/
theorem evict_used (n : Nat) (need : List Nat) (ls : List GatherLine) :
    (evict n need ls).filter (fun l => l.state == .opened && need.contains l.addr)
      = ls.filter fun l => l.state == .opened && need.contains l.addr := by
  induction ls generalizing n with
  | nil => cases n <;> rfl
  | cons a ls ih =>
    cases n with
    | zero => rfl
    | succ n =>
      unfold evict
      split
      · rename_i h
        simp only [Bool.and_eq_true, Bool.not_eq_true'] at h
        rw [List.filter_cons_of_neg (by simp), List.filter_cons_of_neg (by simp_all), ih]
      · simp only [List.filter_cons, ih]

/-- Evictions make the first OPEN lines that the element does not use ISSUING (R78). -/
theorem evict_unused (n : Nat) (need : List Nat) (ls : List GatherLine) :
    (evict n need ls).filter (fun l => l.state == .opened && !need.contains l.addr)
      = (ls.filter fun l => l.state == .opened && !need.contains l.addr).drop n := by
  induction ls generalizing n with
  | nil => cases n <;> rfl
  | cons a ls ih =>
    cases n with
    | zero => rfl
    | succ n =>
      unfold evict
      split
      · rename_i h
        rw [List.filter_cons_of_neg (by simp), List.filter_cons_of_pos (by simpa using h), ih, List.drop_succ_cons]
      · rename_i h
        rw [List.filter_cons_of_neg (by simpa using h), List.filter_cons_of_neg (by simpa using h), ih]

/-- The OPEN lines of the addresses that an element needs stay OPEN through its evictions. -/
theorem evict_hasOpen {n : Nat} {need : List Nat} {ls : List GatherLine} {a : Nat} (ha : a ∈ need) :
    ((evict n need ls).any fun l => l.state == .opened && l.addr == a)
      = ls.any fun l => l.state == .opened && l.addr == a := by
  have through (ms : List GatherLine) : (ms.any fun l => l.state == .opened && l.addr == a)
      = (ms.filter fun l => l.state == .opened && need.contains l.addr).any fun l => l.addr == a := by
    rw [List.any_filter]
    congr 1
    funext l
    by_cases h : l.addr = a
    · simp [h, ha]
    · simp [beq_false_of_ne h]
  rw [through, through, evict_used]

theorem evict_length (n : Nat) (need : List Nat) (ls : List GatherLine) : (evict n need ls).length = ls.length := by
  simpa using congrArg List.length (evict_issue n need ls)

/-- Evictions for an element leave the slots that it lacks. -/
theorem Context.lacking_evict (x y : Context) (n : Nat) (need : List Nat) (hy : y.lines = evict n need x.lines) :
    y.lacking need = x.lacking need := by
  unfold Context.lacking
  have : need.filter (fun a => !y.hasOpen a) = need.filter fun a => !x.hasOpen a := by
    refine List.filter_congr fun a ha => ?_
    simp only [Context.hasOpen, hy, evict_hasOpen ha]
  rw [this, hy, evict_length]

theorem Context.lacking_eq_zero {x : Context} {need : List Nat} :
    x.lacking need = 0 ↔ (need.filter fun a => !x.hasOpen a).length ≤ 4 - x.lines.length := by
  unfold Context.lacking; omega

/-- After step 2 of a write element the hold is NONE or LINE, and NONE exactly when the lines have room (R77, R78). -/
theorem Context.stepTwo_write {x : Context} {d : Descriptor} {p : Vector Nat 4} (hd : x.snapshot = some d)
    (hp : x.take = .at p) (hw : d.direction = .write) (now : BitVec 32) :
    ((x.stepTwo now).hold = .none ∨ (x.stepTwo now).hold = .line)
      ∧ ((x.stepTwo now).hold = .none ↔ (x.stepTwo now).lacking (d.linesNeeded (d.address p).toNat) = 0) := by
  by_cases hk : x.lacking (d.linesNeeded (d.address p).toNat) = 0
  · rw [Context.stepTwo_room hd hp hw now hk]
    exact ⟨.inl rfl, iff_of_true rfl hk⟩
  · have hy := Context.stepTwo_lacking hd hp hw now hk
    rw [Context.lacking_evict x (x.stepTwo now) _ _ (by rw [hy]), hy]
    exact ⟨.inr rfl, iff_of_false (by simp [Context.withHold]) hk⟩

/-- `settle` decides the hold of a waiting head by R103 and step 2. -/
theorem State.Waiting.settle_hold (h : s.settle.Waiting c k) :
    (s.settle.paceStep c = .pace → (s.settle.context c).hold = .pace)
    ∧ (s.settle.paceStep c = .lead → (s.settle.context c).hold = .lead)
    ∧ (s.settle.paceStep c = .pass → s.settle.context c
        = ((s.fill.flushHazards.context c).stepTwo s.timebase).orderIssuing) := by
  have r : s.fill.flushHazards.Resettled s.settle :=
    (State.mapContexts_resettled _ _ fun _ => State.decideHold_resettled _ _ _).trans
      (State.mapContexts_resettled _ _ fun _ => Context.orderIssuing_resettled _)
  have h₁ : s.fill.flushHazards.Waiting c k :=
    ⟨by rw [← r.state, h.active], by rw [← r.snapshot, h.snapshot], by rw [← r.take, h.take],
      by rw [← r.head, h.head], by rw [← r.demand]; exact h.demand⟩
  obtain ⟨hpace, hlead, hpass⟩ := h₁.decideHold h₁.active
  rw [s.settle_context, r.paceStep]
  exact ⟨fun e => by rw [hpace e]; rfl, fun e => by rw [hlead e]; rfl, fun e => by rw [hpass e]; rfl⟩

/-- Every hold after `settle` stands as R103 and step 2 decide it, against any earlier state `s₀` of the same time whose
holds a context with the same transactions keeps. -/
theorem State.settle_holdsAfresh_from (s₀ s : State) (ht : s.timebase = s₀.timebase)
    (hh : ∀ c, (s.context c).service = (s₀.context c).service →
      (s.context c).hold = (s₀.context c).hold ∧ (s.context c).holdStart = (s₀.context c).holdStart) :
    s₀.HoldsAfresh s.settle := by
  have lost {c : Ctx} (ha : (s.settle.context c).state = .active)
      (hl : ∀ l, s.settle.pacing c = some l → l.state = .armed) : s.settle.linkLost c = false := by
    rw [← Bool.not_eq_true, State.linkLost_iff ha]
    rintro ⟨l, h, hb⟩
    rw [hl l h] at hb; cases hb
  have r := s.settle_resettled
  have f := s.fillFlush_resettled
  refine ⟨fun c k hk hl hb => ?_, fun c k hk hl hb hm => ?_, fun c k hk hl hb hm hd => ?_,
    fun c k hk hl hb hm hd => ?_, fun c hs => ?_⟩
  · have w := State.waiting_of_nextElement hk
    exact w.settle_hold.1 (State.paceStep_of_behind w.active (lost w.active hl) hb)
  · have w := State.waiting_of_nextElement hk
    exact w.settle_hold.2.1 (State.paceStep_of_leadLimited w.active (lost w.active hl) hb hm)
  · have w := State.waiting_of_nextElement hk
    have hx := w.settle_hold.2.2 (State.paceStep_of_free w.active (lost w.active hl) hb hm)
    have hd' : (s.fill.flushHazards.context c).snapshot = some k.d := by rw [f.snapshot, ← r.snapshot, w.snapshot]
    have hp' : (s.fill.flushHazards.context c).take = .at k.pos := by rw [f.take, ← r.take, w.take]
    have hold := Context.stepTwo_read hd' hp' hd s.timebase
    have he : (s.settle.context c).entries = (s.fill.flushHazards.context c).entries := by
      rw [s.settle_entries]; simp
    rw [he, ← Context.dataOrSpace_read (d := k.d) (p := k.pos) hd, hx, Context.orderIssuing_hold, hold]
    cases (s.fill.flushHazards.context c).dataOrSpace k.d k.pos <;> simp
  · have w := State.waiting_of_nextElement hk
    have hx := w.settle_hold.2.2 (State.paceStep_of_free w.active (lost w.active hl) hb hm)
    have hd' : (s.fill.flushHazards.context c).snapshot = some k.d := by rw [f.snapshot, ← r.snapshot, w.snapshot]
    have hp' : (s.fill.flushHazards.context c).take = .at k.pos := by rw [f.take, ← r.take, w.take]
    rw [← Context.lacking_eq_zero, hx]
    exact Context.stepTwo_write hd' hp' hd s.timebase
  · rw [r.service] at hs
    obtain ⟨h₁, h₂⟩ := hh c hs
    rw [s.settle_holdStart, h₁, h₂, ht]

end Sys2Proof.Machine
end

section
/-! Reset, and the element that is taken or held (O2, O60, O11). -/

namespace Sys2Proof.Machine

open Sys2Proof

/-! ### Reset -/

@[simp] theorem State.hardwareReset_context (s : State) (c : Ctx) : s.hardwareReset.context c = Context.reset :=
  State.reset_context c

theorem State.reset_slot (u : HostTag) : State.reset.slot u = none := by
  simp [State.slot, State.reset, Vector.get_eq_getElem]

theorem State.reset_track (m : MemTag) : State.reset.track m = none := by
  simp [State.track, State.reset, Vector.get_eq_getElem]

theorem State.reset_pacing (f : Ctx) : State.reset.pacing f = none := by
  simp [State.pacing, State.reset, Vector.get_eq_getElem]

theorem State.reset_aperture (i : ApIx) : State.reset.aperture i = Aperture.reset := by
  simp [State.aperture, State.reset, Vector.get_eq_getElem]

/-- Settles O2: HARDWARE_RESET leaves the tables of `State.reset`. -/
theorem hardwareResetPutsContextsIdle : Obligations.HardwareResetPutsContextsIdle := by
  refine fun s => ⟨s.hardwareReset, rfl, fun c => ?_, State.reset_slot, rfl, State.reset_track⟩
  rw [State.hardwareReset_context]
  simp [Context.reset]

/-- Settles O60: no table of the reset state holds anything that a law speaks of. -/
theorem resetMeetsTheLaws : Obligations.ResetMeetsTheLaws := by
  refine ⟨fun t u a b _ h => ?_, by simp [State.QueueLaw, State.reset], State.reset_contextLaw, ⟨fun i j _ h => ?_,
    fun i c q h => ?_⟩, ⟨fun f l h => ?_, fun f n hn _ => ?_⟩, ⟨List.nodup_nil, fun t => ?_⟩, fun c => ?_⟩
  · simp [State.reset_track] at h
  · simp [State.reset_aperture, Aperture.reset] at h
  · simp [State.reset_aperture, Aperture.reset] at h
  · simp [State.reset_pacing] at h
  · obtain ⟨m, rfl⟩ := Nat.exists_eq_succ_of_ne_zero hn.ne'
    simp [State.ahead, State.reset_pacing]
  · simp [State.reset_slot, show State.reset.responses = [] from rfl]
  · rw [State.reset_context]; simp [Context.BufferLaw, Context.reset]

/-! ### When an element may be taken -/

variable {s : State} {c : Ctx} {k : Taking}

/-- The leader is far enough ahead, and the link that tells so is ARMED (R100, R103). -/
theorem State.notLost_notBehind_iff (ha : (s.context c).state = .active) :
    (s.linkLost c = false ∧ ¬ s.Behind c) ↔ ∀ l, s.pacing c = some l → l.state = .armed ∧
      (s.context c).progress + 1 + l.gap ≤ (s.context l.leader).progress := by
  rw [← Bool.not_eq_true, State.linkLost_iff ha]
  constructor
  · rintro ⟨hb, hf⟩ l hl
    have harmed : l.state = .armed := by
      cases h : l.state with
      | armed => rfl
      | broken => exact absurd ⟨l, hl, h⟩ hb
    exact ⟨harmed, Nat.le_of_not_lt fun h => hf ⟨l, hl, harmed, h⟩⟩
  · intro h
    refine ⟨?_, ?_⟩
    · rintro ⟨l, hl, hb⟩
      rw [(h l hl).1] at hb; cases hb
    · rintro ⟨l, hl, -, hlt⟩
      exact absurd (h l hl).2 (Nat.not_le_of_lt hlt)

theorem State.not_leadLimited_iff : ¬ s.LeadLimited c ↔ ∀ f l n, s.pacing f = some l → l.leader = c → l.state = .armed →
    (s.context f).state = .active → l.lead = some n → (s.context c).progress < (s.context f).progress + n := by
  simp only [State.LeadLimited, not_exists, not_and, Nat.not_le]

theorem Context.dataOrSpace_write {x : Context} {d : Descriptor} {p : Vector Nat 4} (hw : d.direction = .write) :
    x.dataOrSpace d p = true ↔ x.lacking (d.linesNeeded (d.address p).toNat) = 0 := by
  unfold Context.dataOrSpace; simp [hw]

/-- R38: what lets the head's element be taken. -/
theorem State.Waiting.mayTake_iff (w : s.Waiting c k) : s.mayTake c k = true ↔
    s.linkLost c = false ∧ ¬ s.Behind c ∧ ¬ s.LeadLimited c ∧ (s.context c).dataOrSpace k.d k.pos = true := by
  simp only [State.mayTake, Bool.and_eq_true, beq_iff_eq, State.paceStep_pass_iff w.active, and_assoc]

/-! ### What a held element finds after `settle` -/

/-- Making lines ISSUING frees no slot and closes OPEN lines, so an element lacks no fewer slots (R61, R78). -/
theorem Context.lacking_le_of_flush {x y : Context} (p : GatherLine → Bool) (need : List Nat)
    (h : y.lines = x.lines.map fun l => if p l then l.issue else l) : x.lacking need ≤ y.lacking need := by
  have open_of (a : Nat) (ha : y.hasOpen a = true) : x.hasOpen a = true := by
    simp only [Context.hasOpen, h, List.any_map, List.any_eq_true, Function.comp] at ha ⊢
    obtain ⟨l, hl, hp⟩ := ha
    refine ⟨l, hl, ?_⟩
    by_cases e : p l = true
    · simp [e] at hp
    · simpa [e] using hp
  have more : (need.filter fun a => !x.hasOpen a).length ≤ (need.filter fun a => !y.hasOpen a).length := by
    refine (List.monotone_filter_right need fun a ha => ?_).length_le
    cases hy : y.hasOpen a with
    | false => rfl
    | true => simp [open_of a hy] at ha
  have len : y.lines.length = x.lines.length := by simp [h]
  unfold Context.lacking
  omega

/-- A read element that waits for data still waits after `settle`, which creates PENDING entries only (R59). -/
theorem State.Waiting.settle_data (w : s.Waiting c k) (hr : k.d.direction = .read) (hp : s.paceStep c = .pass)
    (hd : (s.context c).dataOrSpace k.d k.pos = false) : (s.settle.context c).hold = .data := by
  have f := s.fillFlush_resettled
  have hx := (w.resettled s.settle_resettled).settle_hold.2.2 (by rw [s.settle_resettled.paceStep, hp])
  have hnot : (s.fill.flushHazards.context c).dataOrSpace k.d k.pos = false := by
    rw [← Bool.not_eq_true, Context.dataOrSpace_read hr] at hd ⊢
    rintro ⟨e, rest, he, hs⟩
    obtain ⟨created, -, -⟩ := (s.context c).createEntries_created k.d
      (s.fillTarget c k.d - (s.context c).entries.length)
    rw [State.flushHazards_entries, s.fill_context, State.fillContext_read w.active w.snapshot hr] at he
    cases hentries : (s.context c).entries with
    | nil =>
      obtain ⟨q, -, -, -, hst, -, -⟩ := created.entry 0 e (by rw [he, hentries]; rfl)
      rw [hst] at hs
      simp at hs
    | cons e' rest' =>
      obtain ⟨more, hm⟩ := (Context.createEntries_rest k.d (s.fillTarget c k.d - (s.context c).entries.length)
        (s.context c)).2
      rw [he, hentries] at hm
      obtain rfl : e' = e := by simpa using congrArg List.head? hm
      exact hd ⟨e', rest', hentries, hs⟩
  rw [hx, Context.orderIssuing_hold, Context.stepTwo_read (by rw [f.snapshot, w.snapshot]) (by rw [f.take, w.take]) hr,
    hnot]
  rfl

/-- A write element that lacks slots waits with hold LINE after `settle`, with the evictions of R78 on the flushed
lines. -/
theorem State.Waiting.settle_lacking (w : s.Waiting c k) (hw : k.d.direction = .write) (hp : s.paceStep c = .pass)
    (hd : (s.context c).dataOrSpace k.d k.pos = false) : (s.settle.context c).hold = .line
      ∧ let need := k.d.linesNeeded (k.d.address k.pos).toNat
        let x := s.fill.flushHazards.context c
        (s.settle.context c).shortfall = x.lacking need
        ∧ (s.settle.context c).lines = evict (x.lacking need - (s.context c).shortfall) need x.lines := by
  have f := s.fillFlush_resettled
  have hx := (w.resettled s.settle_resettled).settle_hold.2.2 (by rw [s.settle_resettled.paceStep, hp])
  have hle := Context.lacking_le_of_flush _ (k.d.linesNeeded (k.d.address k.pos).toNat) (s.fillFlush_lines c)
  have hk : (s.fill.flushHazards.context c).lacking (k.d.linesNeeded (k.d.address k.pos).toNat) ≠ 0 := by
    rw [← Bool.not_eq_true, Context.dataOrSpace_write hw] at hd
    omega
  rw [hx, Context.stepTwo_lacking (by rw [f.snapshot, w.snapshot]) (by rw [f.take, w.take]) hw _ hk]
  refine ⟨rfl, rfl, ?_⟩
  rw [Context.orderIssuing_lines, s.fillFlush_shortfall]

/-- An element that may not be taken leaves the waits to be decided afresh. -/
theorem State.elementTake_held (w : s.nextElement c = some k) (h : s.mayTake c k = false) :
    s.elementTake c = s.settle := by
  simp [State.elementTake, w, h]

/-- Settles O11: the four conditions of R38 by `mayTake_iff`, and the hold by the law of `settle`. -/
theorem elementIsTakenOrHeld : Obligations.ElementIsTakenOrHeld := by
  intro s c k hk
  have w := State.waiting_of_nextElement hk
  refine ⟨?_, fun hm hl => ?_⟩
  · rw [w.mayTake_iff, ← and_assoc, State.notLost_notBehind_iff w.active, State.not_leadLimited_iff]
    refine and_congr_right fun _ => and_congr_right fun _ => ?_
    cases hd : k.d.direction with
    | read => simp [Context.dataOrSpace_read hd]
    | write => simp [Context.dataOrSpace_write hd, Context.lacking_eq_zero]
  · have r := s.settle_resettled
    have holds := (w.resettled r).settle_hold
    rw [r.paceStep] at holds
    have held (hp : s.paceStep c = .pass) : (s.context c).dataOrSpace k.d k.pos = false := by
      simpa [State.mayTake, hp] using hm
    refine ⟨s.settle, congrArg _ (State.elementTake_held hk hm), s.settle_settles, holds.1, holds.2.1,
      fun hp hd => w.settle_data hd hp (held hp), fun hp hd => ?_⟩
    obtain ⟨hline, hshort, hlines⟩ := w.settle_lacking hd hp (held hp)
    have hflushed := s.fillFlush_lines c
    refine ⟨hline, ?_⟩
    dsimp only at hshort hlines ⊢
    rw [hlines, hshort, evict_unused, evict_used]
    simp only [Context.lacking, Context.hasOpen, hflushed, and_self]

end Sys2Proof.Machine
end

section
/-! Answers and head checks: what they leave, whom they answer, and in which order (R36, R37, R107, R115, R128). -/

namespace Sys2Proof.Machine

open Sys2Proof

variable (s : State)

/-! ### What an answer leaves -/

theorem State.answer_rest (t : HostTag) (why : Option HostReason) : s.answer t why = { s with
    slots := (s.answer t why).slots, responses := (s.answer t why).responses, events := (s.answer t why).events,
    loss := (s.answer t why).loss } := by
  unfold State.answer
  split
  · rfl
  · split
    · rfl
    · dsimp only
      split
      · rfl
      · rw [State.post_rest]; rfl

@[simp] theorem State.answer_context (t : HostTag) (why : Option HostReason) (c : Ctx) :
    (s.answer t why).context c = s.context c := by rw [State.answer_rest]; rfl
@[simp] theorem State.answer_links (t : HostTag) (why : Option HostReason) : (s.answer t why).links = s.links := by
  rw [State.answer_rest]
@[simp] theorem State.answer_timebase (t : HostTag) (why : Option HostReason) :
    (s.answer t why).timebase = s.timebase := by rw [State.answer_rest]

theorem State.answer_slot_of_ne {t u : HostTag} (h : t ≠ u) (why : Option HostReason) :
    (s.answer t why).slot u = s.slot u := by
  have set (a : Option HostSlot) : (s.setSlot t a).slot u = s.slot u := by simp [State.slot_setSlot, h]
  unfold State.answer
  split
  · rfl
  · split
    · rfl
    · dsimp only
      split
      · exact set _
      · rw [State.post_slot]; exact set _

/-! ### What stands is upheld -/

/-- From `s` to `t` responses and records only join, no answer given is taken back, and every new record is of one of
the kinds `ks`. -/
structure State.Upholds (ks : List EventKind) (s t : State) : Prop where
  responses : s.responses <+: t.responses
  events : s.events <+: t.events
  answers : ∀ u x a, s.slot u = some x → x.answer = some a → ∃ y, t.slot u = some y ∧ y.answer = some a
  kinds : ∀ e ∈ t.events, e ∈ s.events ∨ e.kind ∈ ks

theorem State.Upholds.refl (ks : List EventKind) : State.Upholds ks s s :=
  ⟨List.prefix_refl _, List.prefix_refl _, fun _ x _ h ha => ⟨x, h, ha⟩, fun _ h => .inl h⟩

variable {s}

/-- What touches neither slots nor responses nor events upholds them. -/
theorem State.Upholds.of_eq {t : State} (hs : t.slots = s.slots) (hr : t.responses = s.responses)
    (he : t.events = s.events) (ks : List EventKind) : State.Upholds ks s t :=
  ⟨by rw [hr], by rw [he], fun u x a h ha => ⟨x, by simpa [State.slot, hs] using h, ha⟩, fun e h => .inl (he ▸ h)⟩

theorem State.Upholds.trans {ks : List EventKind} {t u : State} (h : State.Upholds ks s t) (k : State.Upholds ks t u) :
    State.Upholds ks s u where
  responses := h.responses.trans k.responses
  events := h.events.trans k.events
  answers := fun v x a hx ha => by
    obtain ⟨y, hy, hya⟩ := h.answers v x a hx ha
    exact k.answers v y a hy hya
  kinds := fun e he => (k.kinds e he).elim (fun h' => h.kinds e h') .inr

theorem State.Upholds.mono {ks ls : List EventKind} {t : State} (h : State.Upholds ks s t) (hsub : ks ⊆ ls) :
    State.Upholds ls s t :=
  ⟨h.responses, h.events, h.answers, fun e he => (h.kinds e he).imp id (@hsub _)⟩

theorem State.Resettled.upholds {t : State} (h : s.Resettled t) (ks : List EventKind) : State.Upholds ks s t :=
  .of_eq h.slots h.responses h.events ks

variable (s)

theorem State.post_upholds (e : EventRecord) {ks : List EventKind} (h : e.kind ∈ ks) :
    State.Upholds ks s (s.post e) := by
  refine ⟨by rw [s.post_responses], s.post_events e, fun u x a hx ha => ⟨x, by rwa [s.post_slot], ha⟩, fun e' h' => ?_⟩
  by_cases hr : s.events.length < 32
  · rw [State.post_room hr] at h'
    rcases List.mem_append.mp h' with h' | h'
    · exact .inl h'
    · obtain rfl := List.mem_singleton.mp h'; exact .inr h
  · rw [State.post_full hr] at h'
    exact .inl h'

/-- A slot may be rewritten if the answer it holds stays. -/
theorem State.setSlot_upholds (t : HostTag) (y : HostSlot)
    (h : ∀ x a, s.slot t = some x → x.answer = some a → y.answer = some a) (ks : List EventKind) :
    State.Upholds ks s (s.setSlot t (some y)) := by
  refine ⟨List.prefix_refl _, List.prefix_refl _, fun u x a hx ha => ?_, fun e he => .inl he⟩
  rw [State.slot_setSlot]
  by_cases e : t = u
  · subst e; exact ⟨y, by simp, h x a hx ha⟩
  · exact ⟨x, by simp [e, hx], ha⟩

theorem State.answer_upholds (t : HostTag) (why : Option HostReason) :
    State.Upholds [.hostFault] s (s.answer t why) := by
  by_cases hc : ∀ x, s.slot t = some x → x.answer.isSome = true
  · rw [State.answer_closed hc]; exact .refl s _
  · simp only [not_forall, Option.isSome_iff_ne_none, not_not] at hc
    obtain ⟨x, hx, ho⟩ := hc
    have base (a : HostAnswer) : State.Upholds [.hostFault] s
        { s.setSlot t (some { x with answer := some a }) with responses := s.responses ++ [t] } := by
      have h := s.setSlot_upholds t { x with answer := some a }
        (fun y b hy hb => by rw [hx] at hy; obtain rfl := Option.some.inj hy; simp [ho] at hb) [.hostFault]
      exact ⟨List.prefix_append _ _, h.events, h.answers, h.kinds⟩
    cases why with
    | none => rw [State.answer_okay hx ho]; exact base _
    | some r =>
      rw [State.answer_fault hx ho]
      exact (base _).trans (State.post_upholds _ _ (by simp [State.hostFaultRecord, State.record]))

/-! ### Serving one Service Queue -/

/-- From `s` to `t` only the Service Queue of `c` was served: no link changed, no other context, and no slot that the
queue does not name. -/
structure State.ServesQueue (c : Ctx) (s t : State) : Prop where
  serves : s.Serves t
  upholds : State.Upholds [.hostFault] s t
  links : t.links = s.links
  others : ∀ c', c' ≠ c → t.context c' = s.context c'
  slots : ∀ u, u ∉ (s.context c).service → t.slot u = s.slot u

theorem State.ServesQueue.refl (c : Ctx) : State.ServesQueue c s s :=
  ⟨.refl s, .refl s _, rfl, fun _ _ => rfl, fun _ _ => rfl⟩

variable {s}

theorem State.ServesQueue.trans {c : Ctx} {t u : State} (h : State.ServesQueue c s t) (k : State.ServesQueue c t u) :
    State.ServesQueue c s u where
  serves := h.serves.trans k.serves
  upholds := h.upholds.trans k.upholds
  links := k.links.trans h.links
  others := fun c' e => (k.others c' e).trans (h.others c' e)
  slots := fun v hv => (k.slots v fun hm => hv ((h.serves.service c).subset hm)).trans (h.slots v hv)

theorem State.ServesQueue.pacing {c : Ctx} {t : State} (h : State.ServesQueue c s t) (f : Ctx) :
    t.pacing f = s.pacing f := by simp [State.pacing, h.links]

theorem State.Serves.timebase {t : State} (h : s.Serves t) : t.timebase = s.timebase := by rw [h.rest]

theorem State.Serves.take {t : State} (h : s.Serves t) (c : Ctx) : (t.context c).take = (s.context c).take := by
  rw [h.contexts c]

theorem State.Serves.serial {t : State} (h : s.Serves t) (c : Ctx) : (t.context c).serial = (s.context c).serial := by
  rw [h.contexts c]

theorem State.Serves.holdStart {t : State} (h : s.Serves t) (c : Ctx) :
    (t.context c).holdStart = (s.context c).holdStart := by rw [h.contexts c]

theorem State.ServesQueue.linkLost {c : Ctx} {t : State} (h : State.ServesQueue c s t) (f : Ctx) :
    t.linkLost f = s.linkLost f := by
  simp only [State.linkLost, h.serves.state, h.pacing]

variable (s)

/-- Rewriting the context of `c` as serving may. -/
theorem State.ServesQueue.setContext {c : Ctx} {x : Context} (h : s.Serves (s.setContext c x)) :
    State.ServesQueue c s (s.setContext c x) :=
  ⟨h, ⟨List.prefix_refl _, List.prefix_refl _, fun _ y _ hy ha => ⟨y, hy, ha⟩, fun _ he => .inl he⟩, rfl,
    fun _ e => State.context_setContext_of_ne _ (Ne.symm e) _, fun _ _ => rfl⟩

theorem State.answer_servesQueue {c : Ctx} {t : HostTag} (h : t ∈ (s.context c).service) (why : Option HostReason) :
    State.ServesQueue c s (s.answer t why) where
  serves := s.answer_serves t why
  upholds := s.answer_upholds t why
  links := s.answer_links t why
  others := fun c' _ => s.answer_context t why c'
  slots := fun u hu => s.answer_slot_of_ne (t := t) (u := u) (fun e => hu (e ▸ h)) why

/-- Answering the head and removing it, for a queue that has one. -/
theorem State.finishHead_cons {c : Ctx} {t : HostTag} {rest : List HostTag} (h : (s.context c).service = t :: rest)
    (why : Option HostReason) : s.finishHead c why = (s.answer t why).popHead c := by
  simp only [State.finishHead, h]

theorem State.finishHead_nil {c : Ctx} (h : (s.context c).service = []) (why : Option HostReason) :
    s.finishHead c why = s := by simp only [State.finishHead, h]

theorem State.popHead_servesQueue (c : Ctx) : State.ServesQueue c s (s.popHead c) :=
  State.ServesQueue.setContext s (s.popHead_serves c)

theorem State.finishHead_servesQueue (c : Ctx) (why : Option HostReason) :
    State.ServesQueue c s (s.finishHead c why) := by
  cases h : (s.context c).service with
  | nil => rw [s.finishHead_nil h]; exact .refl s c
  | cons t rest =>
    rw [s.finishHead_cons h]
    exact (s.answer_servesQueue (by simp [h]) why).trans (State.popHead_servesQueue _ c)

theorem State.finishHead_service (c : Ctx) (why : Option HostReason) :
    ((s.finishHead c why).context c).service = (s.context c).service.tail := by
  cases h : (s.context c).service with
  | nil => rw [s.finishHead_nil h, h]; rfl
  | cons t rest => rw [s.finishHead_cons h]; simp [State.popHead, h]

/-- A head is the first of its queue. -/
theorem State.service_of_head {s : State} {c : Ctx} {t : HostTag} {x : HostSlot} (h : s.head c = some (t, x)) :
    ∃ rest, (s.context c).service = t :: rest := by
  obtain ⟨hd, -⟩ := State.head_eq h
  cases hs : (s.context c).service with
  | nil => simp [hs] at hd
  | cons u rest => exact ⟨rest, by simpa [hs] using hd⟩

theorem State.head_of_service {s : State} {c : Ctx} {t : HostTag} {rest : List HostTag} {x : HostSlot}
    (h : (s.context c).service = t :: rest) (hx : s.slot t = some x) : s.head c = some (t, x) := by
  simp [State.head, h, hx]

theorem State.acceptHead_servesQueue {c : Ctx} {t : HostTag} {x : HostSlot} (h : s.head c = some (t, x)) (k : Nat) :
    State.ServesQueue c s (s.acceptHead c t x k) := by
  obtain ⟨rest, hs⟩ := State.service_of_head h
  have hx := (State.head_eq h).2
  refine ⟨s.acceptHead_serves hx k, ?_, rfl, fun c' e => ?_, fun u hu => ?_⟩
  · have h := s.setSlot_upholds t { x with count := some k, taken := 0 } (fun y a hy ha => by
      rw [hx] at hy; obtain rfl := Option.some.inj hy; exact ha) [.hostFault]
    exact ⟨h.responses, h.events, h.answers, h.kinds⟩
  · exact State.context_setContext_of_ne _ (Ne.symm e) _
  · have ne : t ≠ u := fun e => hu (by simp [hs, e])
    simp [State.acceptHead, State.slot_setSlot, ne]

theorem State.fillAt_servesQueue (c : Ctx) : State.ServesQueue c s (s.fillAt c) :=
  State.ServesQueue.setContext s (s.fillAt_serves c)

/-- What one head check can do: nothing; answer and remove the head, with its entries created or not; or accept it
(R37, R107). -/
theorem State.promoteN_succ (c : Ctx) (n : Nat) :
    State.promoteN c (n + 1) s = s
    ∨ (∃ t x r why, s.head c = some (t, x) ∧ (r = s ∨ ∃ k, r = (s.acceptHead c t x k).fillAt c)
        ∧ State.promoteN c (n + 1) s = State.promoteN c n (r.finishHead c why))
    ∨ ∃ t x k, s.head c = some (t, x) ∧ State.promoteN c (n + 1) s = (s.acceptHead c t x k).fillAt c := by
  rw [State.promoteN]
  split
  · rename_i d t x _ _ hh
    split
    · split
      · exact .inr (.inl ⟨t, x, s, _, hh, .inl rfl, rfl⟩)
      · exact .inl rfl
    · split
      · exact .inr (.inl ⟨t, x, s, _, hh, .inl rfl, rfl⟩)
      · exact .inr (.inl ⟨t, x, s, _, hh, .inl rfl, rfl⟩)
      · dsimp only
        split
        · exact .inr (.inl ⟨t, x, _, _, hh, .inr ⟨_, rfl⟩, rfl⟩)
        · exact .inr (.inr ⟨t, x, _, hh, rfl⟩)
  · exact .inl rfl

/-- Accepting a head and creating its entries serves its queue (R58, R59). -/
theorem State.acceptFill_servesQueue {c : Ctx} {t : HostTag} {x : HostSlot} (h : s.head c = some (t, x)) (k : Nat) :
    State.ServesQueue c s ((s.acceptHead c t x k).fillAt c) :=
  (s.acceptHead_servesQueue h k).trans (State.fillAt_servesQueue _ c)

/-- Head checks serve the queue that they are made for (R37, R107). -/
theorem State.promoteN_servesQueue (c : Ctx) (n : Nat) : State.ServesQueue c s (State.promoteN c n s) := by
  induction n generalizing s with
  | zero => exact .refl s c
  | succ n ih =>
    rcases s.promoteN_succ c n with e | ⟨t, x, r, why, hh, rfl | ⟨k, rfl⟩, e⟩ | ⟨t, x, k, hh, e⟩
    · rw [e]; exact .refl s c
    · rw [e]; exact (State.finishHead_servesQueue _ c why).trans (ih _)
    · rw [e]; exact ((s.acceptFill_servesQueue hh k).trans (State.finishHead_servesQueue _ c why)).trans (ih _)
    · rw [e]; exact s.acceptFill_servesQueue hh k

theorem State.promote_servesQueue (c : Ctx) : State.ServesQueue c s (s.promote c) := s.promoteN_servesQueue c _

theorem State.finishEarly_servesQueue (c : Ctx) (why : HostReason) : State.ServesQueue c s (s.finishEarly c why) :=
  (s.finishHead_servesQueue c _).trans (State.promote_servesQueue _ c)

/-- Accepting a head leaves its queue and the hold. -/
theorem State.acceptFill_context (c : Ctx) (t : HostTag) (x : HostSlot) (k : Nat) :
    (((s.acceptHead c t x k).fillAt c).context c).hold = (s.context c).hold
      ∧ (((s.acceptHead c t x k).fillAt c).context c).service = (s.context c).service := by
  rw [State.fillAt, State.context_setContext_self, (State.fillContext_rest _ c _).1]
  simp [State.acceptHead]

/-- A queue that keeps its transactions keeps its hold: head checks clear it only as a head leaves. -/
theorem State.promoteN_hold (c : Ctx) (n : Nat)
    (h : ((State.promoteN c n s).context c).service = (s.context c).service) :
    ((State.promoteN c n s).context c).hold = (s.context c).hold := by
  cases n with
  | zero => rfl
  | succ n =>
    rcases s.promoteN_succ c n with e | ⟨t, x, r, why, hh, hr, e⟩ | ⟨t, x, k, hh, e⟩
    · rw [e]
    · obtain ⟨rest, hs⟩ := State.service_of_head hh
      have hr : (r.context c).service = t :: rest := by
        rcases hr with rfl | ⟨k, rfl⟩
        · exact hs
        · rw [(s.acceptFill_context c t x k).2, hs]
      have hle := ((State.promoteN_serves (r.finishHead c why) c n).service c).length_le
      rw [← e, h, r.finishHead_service, hr, hs] at hle
      simp at hle
    · rw [e, (s.acceptFill_context c t x k).1]

end Sys2Proof.Machine
end

section
/-! Walk accesses and the head check on arrival (O9, O10). -/

namespace Sys2Proof

open Sys2Proof.Machine

/-! ### The elements of a request (R113, R122, R123) -/

/-- A request addresses at least one byte (R113). -/
theorem HostRequest.length_pos {r : HostRequest} (h : r.wf = true) : 0 < r.length := by
  simp only [HostRequest.wf, Bool.and_eq_true, decide_eq_true_eq, Bool.or_eq_true, bne_iff_ne, beq_iff_eq] at h
  obtain ⟨⟨⟨hb, -⟩, hs⟩, -⟩ := h
  unfold HostRequest.length
  split <;> omega

/-- Byte `j` of slot `i` is strobed. -/
def HostRequest.strobed (r : HostRequest) (wh i j : Nat) : Bool := r.strobes.getD (r.offset + i * wh + j) false

/-- Every byte of slot `i` is strobed. -/
def HostRequest.fullSlot (r : HostRequest) (wh i : Nat) : Bool := (List.range wh).all (r.strobed wh i)

variable {r : HostRequest} {wh : Nat}

theorem HostRequest.fullSlot_iff {i : Nat} : r.fullSlot wh i = true ↔ ∀ j < wh, r.strobed wh i j = true := by
  simp [HostRequest.fullSlot]

/-- Addresses and lengths that are no multiples of Wh fit no slot (R122). -/
theorem HostRequest.elements_misfit (h : ¬ (r.address.toNat % wh = 0 ∧ r.length % wh = 0)) :
    r.elements wh = .error .align := by
  unfold HostRequest.elements
  rw [if_pos (by tauto)]

theorem HostRequest.elements_read (h : r.address.toNat % wh = 0 ∧ r.length % wh = 0) (hk : r.kind = .read) :
    r.elements wh = .ok (List.range (r.length / wh)) := by
  unfold HostRequest.elements
  rw [if_neg (by tauto)]
  simp [hk]

/-- The elements of a write are its fully strobed slots, if no slot is partly strobed (R123). -/
theorem HostRequest.elements_write (h : r.address.toNat % wh = 0 ∧ r.length % wh = 0) (hk : r.kind = .write) :
    ((∃ i < r.length / wh, (∃ j < wh, r.strobed wh i j = true) ∧ ∃ j < wh, ¬ r.strobed wh i j = true) →
      r.elements wh = .error .align)
    ∧ ((∀ i < r.length / wh, ¬ ((∃ j < wh, r.strobed wh i j = true) ∧ ∃ j < wh, ¬ r.strobed wh i j = true)) →
      r.elements wh = .ok ((List.range (r.length / wh)).filter (r.fullSlot wh))) := by
  have unfolded : r.elements wh =
      if ((List.range (r.length / wh)).all fun i => r.fullSlot wh i || (List.range wh).all fun j => !r.strobed wh i j)
      then .ok ((List.range (r.length / wh)).filter (r.fullSlot wh)) else .error .align := by
    unfold HostRequest.elements
    rw [if_neg (by tauto)]
    simp only [hk]
    rfl
  have whole (i : Nat) : (r.fullSlot wh i || (List.range wh).all fun j => !r.strobed wh i j) = true
      ↔ ¬ ((∃ j < wh, r.strobed wh i j = true) ∧ ∃ j < wh, ¬ r.strobed wh i j = true) := by
    simp only [Bool.or_eq_true, HostRequest.fullSlot_iff, List.all_eq_true, List.mem_range, Bool.not_eq_true']
    push Not
    constructor
    · rintro (h | h) ⟨j, hj, hs⟩
      · exact h
      · rw [h j hj] at hs; cases hs
    · intro h
      by_cases hs : ∃ j < wh, r.strobed wh i j = true
      · exact .inl (h hs)
      · exact .inr fun j hj => by simpa using fun e => hs ⟨j, hj, e⟩
  rw [unfolded]
  constructor
  · rintro ⟨i, hi, hp⟩
    rw [if_neg]
    intro hall
    exact (whole i).mp (List.all_eq_true.mp hall i (List.mem_range.mpr hi)) hp
  · intro hno
    rw [if_pos]
    exact List.all_eq_true.mpr fun i hi => (whole i).mpr (hno i (List.mem_range.mp hi))

end Sys2Proof

namespace Sys2Proof.Machine

open Sys2Proof

/-! ### Classification (R120) -/

/-- While no two enabled apertures overlap, a request inside one of them belongs to its context. -/
theorem State.classify_of_inside {s : State} {r : HostRequest} {i : ApIx} (hr : r.wf = true) (hl : s.ApertureLaw)
    (he : (s.aperture i).enabled = true) (hi : r.range.inside (s.aperture i).range = true) :
    s.classify r = .walk (s.aperture i).context := by
  have hpos := HostRequest.length_pos hr
  have found : (s.apertureList.find? fun a => a.enabled && r.range.inside a.range) = some (s.aperture i) := by
    cases hf : s.apertureList.find? fun a => a.enabled && r.range.inside a.range with
    | none =>
      have hm : s.aperture i ∈ s.apertureList := List.mem_map.mpr ⟨i, List.mem_finRange i, rfl⟩
      simpa [he, hi] using List.find?_eq_none.mp hf _ hm
    | some a =>
      have ha := List.find?_some hf
      obtain ⟨j, -, rfl⟩ := List.mem_map.mp (List.mem_of_find?_eq_some hf)
      by_cases hij : j = i
      · rw [hij]
      · simp only [Bool.and_eq_true] at ha
        have hmeet := hl.1 j i hij ha.1 he
        have hj := ha.2
        simp only [Region.inside, Region.meets, Bool.and_eq_true, Bool.and_eq_false_iff, decide_eq_true_eq,
          decide_eq_false_iff_not] at hi hj hmeet
        have hrange : r.range.lo ≤ r.range.hi := by simp only [HostRequest.range]; omega
        omega
  simp [State.classify, found]

/-- The slot of a walk access of `c` (R116, R120). -/
def walkSlot (r : HostRequest) (c : Ctx) : HostSlot := { r.newSlot with cls := some (.walk c) }

/-- HOST_REQUEST_ARRIVAL of a walk access (R35, R120). -/
theorem exec_arrival_walk {s : State} {r : HostRequest} {c : Ctx} (hr : s.rstLow = false) (hf : s.slot r.tag = none)
    (hm : r.malformed = false) (hc : s.classify r = .walk c) : exec (.hostRequestArrival r) s
      = .next ((s.setSlot r.tag (some (walkSlot r c))).walkAccess r.tag c).settle := by
  show Host.Outcome.next (s.arrival r) = _
  simp [State.arrival, State.accept, hr, hf, hm, hc, walkSlot]

/-- After `settle` a DRAINING context shows hold NEXT while transactions wait, and NONE otherwise (R39). -/
theorem State.settle_hold_draining {s : State} {c : Ctx} (h : (s.context c).state = .draining) :
    (s.settle.context c).hold = if (s.context c).service.isEmpty then .none else .next := by
  have f := s.fillFlush_resettled
  have hd : (s.fill.flushHazards.context c).state = .draining := by rw [f.state, h]
  rw [s.settle_context, Context.orderIssuing_hold, State.decideHold, hd]
  simp only [Context.withHold, f.service]

/-! ### A walk access by the state of its context (R35) -/

section WalkAccess

variable {s : State} {c : Ctx}

theorem State.walkAccess_idle (h : (s.context c).state = .idle) (t : HostTag) :
    s.walkAccess t c = s.answer t (some .noWalk) := by simp [State.walkAccess, h]

theorem State.walkAccess_faulted (h : (s.context c).state = .faulted) (t : HostTag) :
    s.walkAccess t c = s.answer t (some .contextFaulted) := by simp [State.walkAccess, h]

theorem State.walkAccess_draining (h : (s.context c).state = .draining) (t : HostTag) : s.walkAccess t c
    = s.setContext c { s.context c with service := (s.context c).service ++ [t] } := by simp [State.walkAccess, h]

theorem State.walkAccess_active (h : (s.context c).state = .active) (t : HostTag) : s.walkAccess t c
    = (s.setContext c { s.context c with service := (s.context c).service ++ [t] }).promote c := by
  simp [State.walkAccess, h]

end WalkAccess

/-- Settles O9: each state of the context is a branch of R35. -/
theorem walkAccessFollowsContextState : Obligations.WalkAccessFollowsContextState := by
  intro s r i hr hm hlow hfree hlaw he hi c x s₁ queued
  have hexec : exec (.hostRequestArrival r) s = .next (s₁.walkAccess r.tag c).settle :=
    exec_arrival_walk hlow hfree hm (State.classify_of_inside hr hlaw he hi)
  refine ⟨_, hexec, fun hs => ?_, fun hs => ?_, fun hs => ?_, fun hs _ hc hl => ?_⟩
  · rw [State.walkAccess_idle (s := s₁) hs]
    exact State.settle_resettled _
  · rw [State.walkAccess_faulted (s := s₁) hs]
    exact State.settle_resettled _
  · have hdrain : (queued.context c).state = .draining := by simpa [queued] using hs
    have hold := State.settle_hold_draining hdrain
    have hq : (queued.context c).service = x.service ++ [r.tag] := by simp [queued]
    rw [hq] at hold
    rw [State.walkAccess_draining (s := s₁) hs]
    exact ⟨State.settle_resettled queued, hold.trans (by simp)⟩
  · have hlost : queued.linkLost c = false := by simpa [State.linkLost, queued, s₁] using hl
    have hp : queued.promote c = queued := State.promote_of_checked (by simpa [queued] using hc) hlost
    rw [State.walkAccess_active (s := s₁) hs]
    exact hp.symm ▸ State.settle_resettled queued

/-! ### One head check, by its outcome (R37, R107) -/

section HeadCheck

variable {s : State} {c : Ctx} {d : Descriptor} {t : HostTag} {x : HostSlot} (ha : (s.context c).state = .active)
  (hd : (s.context c).snapshot = some d) (hh : s.head c = some (t, x)) (n : Nat)
include ha hd hh

/-- A checked head that needs elements under a BROKEN link is answered LEADER_LOST. -/
theorem State.promoteN_checked_lost (hc : (s.context c).headChecked = true) (hl : s.linkLost c = true)
    (hdem : 0 < s.demand c) : State.promoteN c (n + 1) s = State.promoteN c n (s.finishHead c (some .leaderLost)) := by
  simp [State.promoteN, ha, hd, hh, hc, hl, hdem]

variable (hc : (s.context c).headChecked = false)
include hc

/-- A head whose form does not fit the walk is answered with the reason. -/
theorem State.promoteN_refused {why : HostReason} (hk : d.headCheck x.req = .error why) :
    State.promoteN c (n + 1) s = State.promoteN c n (s.finishHead c (some why)) := by
  simp [State.promoteN, ha, hd, hh, hc, hk]

/-- A write without an element is answered OKAY. -/
theorem State.promoteN_okay (hk : d.headCheck x.req = .ok 0) :
    State.promoteN c (n + 1) s = State.promoteN c n (s.finishHead c none) := by
  simp [State.promoteN, ha, hd, hh, hc, hk]

/-- A head with elements is accepted and its entries created. -/
theorem State.promoteN_accepted {k : Nat} (hk : d.headCheck x.req = .ok (k + 1)) (hl : s.linkLost c = false) :
    State.promoteN c (n + 1) s = (s.acceptHead c t x (k + 1)).fillAt c := by
  have hl' : State.linkLost ((s.acceptHead c t x (k + 1)).fillAt c) c = false := by
    rw [(s.acceptFill_servesQueue hh (k + 1)).linkLost, hl]
  simp [State.promoteN, ha, hd, hh, hc, hk, hl]

/-- Under a BROKEN link it is accepted and answered LEADER_LOST. -/
theorem State.promoteN_lost {k : Nat} (hk : d.headCheck x.req = .ok (k + 1)) (hl : s.linkLost c = true) :
    State.promoteN c (n + 1) s
      = State.promoteN c n (((s.acceptHead c t x (k + 1)).fillAt c).finishHead c (some .leaderLost)) := by
  simp [State.promoteN, ha, hd, hh, hc, hk, hl]

end HeadCheck

/-! ### A context record and the answers do not meet -/

theorem State.post_setContext (s : State) (e : EventRecord) (c : Ctx) (x : Context) :
    (s.setContext c x).post e = (s.post e).setContext c x := by
  by_cases h : s.events.length < 32
  · rw [State.post_room (s := s.setContext c x) h, State.post_room h]; rfl
  · rw [State.post_full (s := s.setContext c x) h, State.post_full h]; rfl

/-- Answers read and write no context. -/
theorem State.answer_setContext (s : State) (t : HostTag) (why : Option HostReason) (c : Ctx) (x : Context) :
    (s.setContext c x).answer t why = (s.answer t why).setContext c x := by
  by_cases hc : ∀ y, s.slot t = some y → y.answer.isSome = true
  · rw [State.answer_closed hc, State.answer_closed (s := s.setContext c x) hc]
  · simp only [not_forall, Option.isSome_iff_ne_none, not_not] at hc
    obtain ⟨y, hy, ho⟩ := hc
    have ho : y.answer = none := by simpa using ho
    cases why with
    | none => rw [State.answer_okay hy ho, State.answer_okay (s := s.setContext c x) hy ho]; rfl
    | some r =>
      rw [State.answer_fault hy ho, State.answer_fault (s := s.setContext c x) hy ho]
      exact State.post_setContext { s.setSlot t _ with responses := s.responses ++ [t] } _ c x

@[simp] theorem State.setSlot_setSlot (s : State) (t : HostTag) (x y : Option HostSlot) :
    (s.setSlot t x).setSlot t y = s.setSlot t y := by simp [State.setSlot]

/-- Rewriting one context by a resettled record resettles. -/
theorem State.setContext_resettled (s : State) {c : Ctx} {x : Context} (h : (s.context c).Resettled x) :
    s.Resettled (s.setContext c x) where
  rest := rfl
  contexts := fun c' => by
    by_cases e : c = c'
    · subst e; simpa using h
    · simpa [State.context_setContext_of_ne _ e] using Context.Resettled.refl _

/-- What serving leaves of an empty, unchecked queue is a resettling of the context. -/
theorem State.Serves.resettled_context {s t : State} (h : s.Serves t) {c : Ctx} {x : Context} {q : List HostTag}
    (hx : s.context c = { x with service := q }) (hv : (t.context c).service = x.service)
    (hc : (t.context c).headChecked = x.headChecked) : x.Resettled (t.context c) := by
  have e := h.contexts c
  have he := h.entries c
  rw [hx, hv, hc] at e
  rw [hx] at he
  refine ⟨?_, he, ?_, ?_, ?_⟩ <;> rw [e]
  · exact fun _ hl _ => hl

/-! ### The head check of an arriving request (R37) -/

/-- A read that fits Wh has an element per slot, and at least one. -/
theorem Descriptor.headCheck_read {d : Descriptor} {r : HostRequest} (hw : r.wf = true) (hk : r.kind = d.direction)
    (hf : r.address.toNat % d.hostSize = 0 ∧ r.length % d.hostSize = 0) (hr : r.kind = .read) :
    ∃ k, d.headCheck r = .ok (k + 1) ∧ k + 1 = r.length / d.hostSize := by
  have hpos : r.length / d.hostSize ≠ 0 := by
    have := HostRequest.length_pos hw
    have := Nat.div_add_mod r.length d.hostSize
    intro h
    rw [h] at this
    omega
  obtain ⟨k, hk'⟩ := Nat.exists_eq_succ_of_ne_zero hpos
  refine ⟨k, ?_, hk'.symm⟩
  simp [Descriptor.headCheck, hk, HostRequest.elements_read hf hr, Except.map, hk']

/-- The fully strobed slots of a write, counted in whatever order they are listed. -/
theorem HostRequest.countFull {r : HostRequest} {wh n : Nat} {full : List Nat} (hn : full.Nodup)
    (hm : ∀ i, i ∈ full ↔ i < n ∧ ∀ j < wh, r.strobed wh i j = true) :
    ((List.range n).filter (r.fullSlot wh)).length = full.length := by
  refine List.Perm.length_eq ((List.perm_ext_iff_of_nodup (List.nodup_range.filter _) hn).mpr fun i => ?_)
  rw [hm, List.mem_filter, List.mem_range, HostRequest.fullSlot_iff]

section Arrival

variable {s : State} {r : HostRequest} {c : Ctx} {d : Descriptor}

/-- The state in which an arriving walk access has joined the empty Service Queue of `c`. -/
def State.joined (s : State) (r : HostRequest) (c : Ctx) : State :=
  (s.setSlot r.tag (some (walkSlot r c))).setContext c { s.context c with service := [r.tag] }

/-- What is known of an arriving request that becomes the head of an ACTIVE walk. -/
structure State.Heads (s : State) (r : HostRequest) (c : Ctx) (d : Descriptor) : Prop where
  active : (s.context c).state = .active
  empty : (s.context c).service = []
  unchecked : (s.context c).headChecked = false
  snapshot : (s.context c).snapshot = some d

theorem State.Heads.joined_head : (s.joined r c).head c = some (r.tag, walkSlot r c) := by
  simp [State.joined, State.head]

theorem State.joined_linkLost : (s.joined r c).linkLost c = s.linkLost c := by
  simp [State.joined, State.linkLost]

/-- Accepting the head that has just joined (R37, R124). -/
theorem State.joined_accept (k : Nat) : (s.joined r c).acceptHead c r.tag (walkSlot r c) k
    = (s.setSlot r.tag (some { walkSlot r c with count := some k, taken := 0 })).setContext c
      { s.context c with service := [r.tag], headChecked := true } := by
  have hx : (s.joined r c).context c = { s.context c with service := [r.tag] } := by simp [State.joined]
  rw [State.acceptHead, hx]
  show (((s.setSlot r.tag _).setSlot r.tag _).setContext c _).setContext c _ = _
  rw [State.setContext_setContext, State.setSlot_setSlot]

theorem State.Heads.arrival (h : s.Heads r c d) :
    (s.setSlot r.tag (some (walkSlot r c))).walkAccess r.tag c = State.promoteN c 2 (s.joined r c) := by
  rw [State.walkAccess_active (s := s.setSlot r.tag (some (walkSlot r c))) h.active]
  simp [State.promote, State.joined, h.empty]

/-- Head checks end with the queue. -/
theorem State.promoteN_empty {t : State} (h : (t.context c).service = []) (n : Nat) : State.promoteN c n t = t := by
  cases n with
  | zero => rfl
  | succ n =>
    rw [State.promoteN, State.head_nil h]
    split
    · rename_i h₁; cases h₁
    · rfl

/-- An answered head leaves the contexts as if the request had never joined. -/
theorem State.Heads.finished (h : s.Heads r c d) {q : State} (hq : (s.joined r c).Serves q)
    (hs : (q.context c).service = [r.tag]) {a : State} (ha : a.context c = s.context c)
    (e : ∃ y, q = a.setContext c y) (why : Option HostReason) (n : Nat) :
    (a.answer r.tag why).Resettled (State.promoteN c n (q.finishHead c why)) := by
  obtain ⟨y, e⟩ := e
  have hempty : ((q.finishHead c why).context c).service = [] := by rw [q.finishHead_service, hs]; rfl
  have hx := (hq.trans (q.finishHead_serves c why)).resettled_context (c := c) (x := s.context c) (q := [r.tag])
    (by simp [State.joined]) (by rw [hempty, h.empty]) (by
      rw [q.finishHead_cons hs]; simp [State.popHead, h.unchecked])
  rw [State.promoteN_empty hempty]
  have hform : q.finishHead c why = (a.answer r.tag why).setContext c ((q.finishHead c why).context c) := by
    rw [q.finishHead_cons hs, e, State.answer_setContext]
    simp [State.popHead]
  rw [hform]
  exact State.setContext_resettled _ (by rw [State.answer_context, ha]; exact hx)

variable (h : s.Heads r c d)
include h

theorem State.Heads.joined_active : ((s.joined r c).context c).state = .active := by
  simp [State.joined, h.active]

theorem State.Heads.joined_snapshot : ((s.joined r c).context c).snapshot = some d := by
  simp [State.joined, h.snapshot]

theorem State.Heads.joined_unchecked : ((s.joined r c).context c).headChecked = false := by
  simp [State.joined, h.unchecked]

/-- A head that fails its check is answered with the reason (R37). -/
theorem State.Heads.refused {why : HostReason} (hk : d.headCheck r = .error why) :
    State.Resettled ((s.setSlot r.tag (some (walkSlot r c))).answer r.tag (some why))
      ((s.setSlot r.tag (some (walkSlot r c))).walkAccess r.tag c).settle := by
  rw [h.arrival, State.promoteN_refused h.joined_active h.joined_snapshot State.Heads.joined_head _ h.joined_unchecked hk]
  exact (h.finished (.refl _) (by simp [State.joined]) (by simp) ⟨_, rfl⟩ _ _).trans (State.settle_resettled _)

/-- A write without an element is answered OKAY (R37). -/
theorem State.Heads.okay (hk : d.headCheck r = .ok 0) :
    State.Resettled ((s.setSlot r.tag (some (walkSlot r c))).answer r.tag none)
      ((s.setSlot r.tag (some (walkSlot r c))).walkAccess r.tag c).settle := by
  rw [h.arrival, State.promoteN_okay h.joined_active h.joined_snapshot State.Heads.joined_head _ h.joined_unchecked hk]
  exact (h.finished (.refl _) (by simp [State.joined]) (by simp) ⟨_, rfl⟩ _ _).trans (State.settle_resettled _)

/-- A head that passes its check waits with its element count (R37, R124). -/
theorem State.Heads.accepted {k : Nat} (hk : d.headCheck r = .ok (k + 1)) (hl : s.linkLost c = false) :
    State.Resettled ((s.setSlot r.tag (some { walkSlot r c with count := some (k + 1), taken := 0 })).setContext c
        { s.context c with service := [r.tag], headChecked := true })
      ((s.setSlot r.tag (some (walkSlot r c))).walkAccess r.tag c).settle := by
  rw [h.arrival, State.promoteN_accepted h.joined_active h.joined_snapshot State.Heads.joined_head _ h.joined_unchecked hk
    (by rw [State.joined_linkLost, hl])]
  rw [← State.joined_accept]
  exact (State.fillAt_resettled _ c).trans (State.settle_resettled _)

/-- Under a BROKEN link it is answered LEADER_LOST (R107). -/
theorem State.Heads.lost {k : Nat} (hk : d.headCheck r = .ok (k + 1)) (hl : s.linkLost c = true) :
    State.Resettled ((s.setSlot r.tag (some { walkSlot r c with count := some (k + 1), taken := 0 })).answer r.tag
        (some .leaderLost))
      ((s.setSlot r.tag (some (walkSlot r c))).walkAccess r.tag c).settle := by
  rw [h.arrival, State.promoteN_lost h.joined_active h.joined_snapshot State.Heads.joined_head _ h.joined_unchecked hk
    (by rw [State.joined_linkLost, hl])]
  have serves := ((s.joined r c).acceptFill_servesQueue State.Heads.joined_head (k + 1)).serves
  refine (h.finished serves ?_ ?_ ?_ _ _).trans (State.settle_resettled _)
  · rw [(State.acceptFill_context _ c r.tag (walkSlot r c) (k + 1)).2]; simp [State.joined]
  · rfl
  · exact ⟨_, by rw [State.fillAt, State.joined_accept, State.setContext_setContext]⟩

end Arrival

/-- Settles O10: the outcome of the head check by the form of the request, and the state by that outcome. -/
theorem headCheckOnArrival : Obligations.HeadCheckOnArrival := by
  intro s r c d hw hm hlow hfree hc ha hempty hun hd hsize strobed fits partly n slot s₁ head lost broken waits
  have h : s.Heads r c d := ⟨ha, hempty, hun, hd⟩
  have wait {k : Nat} (hk : d.headCheck r = .ok (k + 1)) : waits (k + 1) (s₁.walkAccess r.tag c).settle := by
    refine ⟨fun hb => h.accepted hk ?_, fun hb => h.lost hk ((State.linkLost_iff ha).mpr hb)⟩
    rw [← Bool.not_eq_true, State.linkLost_iff ha]; exact hb
  have check (hk : r.kind = d.direction) : d.headCheck r = (r.elements d.hostSize).map List.length := by
    simp [Descriptor.headCheck, hk]
  refine ⟨_, exec_arrival_walk hlow hfree hm hc, fun hk => ?_, fun hk hno => ?_, fun hk hf hwr hno => ?_,
    fun hk hf hrd => ?_, fun hk hf hwr hno full hn hne hmem => ?_⟩
  · exact h.refused (by simp [Descriptor.headCheck, hk])
  · refine h.refused ?_
    rw [check hk]
    by_cases hf : fits
    · rw [(HostRequest.elements_write hf (hno.resolve_left (not_not_intro hf)).1).1
        (hno.resolve_left (not_not_intro hf)).2]
      rfl
    · rw [HostRequest.elements_misfit hf]; rfl
  · refine h.okay ?_
    rw [check hk, (HostRequest.elements_write hf hwr).2 fun i hi ⟨⟨j, hj, hs⟩, _⟩ => hno i hi j hj hs]
    have none_full : (List.range n).filter (r.fullSlot d.hostSize) = [] := by
      refine List.filter_eq_nil_iff.mpr fun i hi hfull => ?_
      exact hno i (List.mem_range.mp hi) 0 (by omega) (HostRequest.fullSlot_iff.mp hfull 0 (by omega))
    show Except.ok ((List.range n).filter (r.fullSlot d.hostSize)).length = _
    rw [none_full]; rfl
  · obtain ⟨k, hok, hlen⟩ := Descriptor.headCheck_read hw hk hf hrd
    show waits (r.length / d.hostSize) _
    rw [← hlen]
    exact wait hok
  · have hcount := HostRequest.countFull hn hmem
    obtain ⟨k, hk'⟩ := Nat.exists_eq_succ_of_ne_zero (fun e => hne (List.length_eq_zero_iff.mp e))
    rw [hk']
    refine wait ?_
    rw [check hk, (HostRequest.elements_write hf hwr).2 hno]
    show Except.ok ((List.range n).filter (r.fullSlot d.hostSize)).length = _
    rw [hcount, hk']

end Sys2Proof.Machine
end

section
/-! Elements that are taken (O13, O15) and heads that run out of time (O29). -/

namespace Sys2Proof.Machine

open Sys2Proof

/-! ### What merging and moving an element leave (R38, R77) -/

theorem Context.mergeByte_rest (now : BitVec 32) (x : Context) (m : Nat × Byte) :
    x.mergeByte now m = { x with lines := (x.mergeByte now m).lines } := by
  unfold Context.mergeByte; dsimp only; split <;> rfl

/-- Merging touches the lines of a context only (R77). -/
theorem Context.mergeBytes_rest (now : BitVec 32) (bytes : List (Nat × Byte)) (x : Context) :
    x.mergeBytes now bytes = { x with lines := (x.mergeBytes now bytes).lines } := by
  have through (y : Context) (ls : List GatherLine) (h : y = { x with lines := y.lines }) :
      { y with lines := ls } = { x with lines := ls } := by rw [h]
  induction bytes generalizing x with
  | nil => rfl
  | cons m ms ih =>
    have step := ih (x.mergeByte now m) fun y ls h => by rw [h]
    exact step.trans (through _ _ (x.mergeByte_rest now m))

/-- The head's slot after its next element: a write counts it, a read places its bytes as well (R47, R49). -/
def Taking.newSlot (k : Taking) (x : Context) : HostSlot :=
  match k.d.direction with
  | .read => k.readSlot (x.entries.head?.map Entry.state)
  | .write => { k.head with taken := k.head.taken + 1 }

theorem Taking.readSlot_fields (k : Taking) (e : Option EntryState) :
    (k.readSlot e).taken = k.head.taken + 1 ∧ (k.readSlot e).count = k.head.count
      ∧ (k.readSlot e).answer = k.head.answer := by
  unfold Taking.readSlot; split <;> exact ⟨rfl, rfl, rfl⟩

theorem Taking.newSlot_fields (k : Taking) (x : Context) : (k.newSlot x).taken = k.head.taken + 1
    ∧ (k.newSlot x).count = k.head.count ∧ (k.newSlot x).answer = k.head.answer := by
  unfold Taking.newSlot
  split
  · exact k.readSlot_fields _
  · exact ⟨rfl, rfl, rfl⟩

variable (s : State) (c : Ctx) (k : Taking)

theorem State.moveElement_slot (u : HostTag) :
    (s.moveElement c k).slot u = if k.tag = u then some (k.newSlot (s.context c)) else s.slot u := by
  unfold State.moveElement Taking.newSlot
  cases k.d.direction <;> simp [State.markStale, State.slot_setSlot]

theorem State.moveElement_rest : s.moveElement c k = { s with
    ctx := (s.moveElement c k).ctx, slots := (s.moveElement c k).slots } := by
  unfold State.moveElement
  dsimp only
  split <;> rfl

/-- Moving an element leaves all of a context but its entries and its lines. -/
theorem State.moveElement_context (c' : Ctx) : (s.moveElement c k).context c' = { s.context c' with
    entries := ((s.moveElement c k).context c').entries, lines := ((s.moveElement c k).context c').lines } := by
  unfold State.moveElement
  cases k.d.direction with
  | read => dsimp only; rw [State.context_setContext]; split <;> simp_all
  | write =>
    simp only [State.markStale, State.context_mapContexts, State.context_setContext]
    split
    · rename_i e; subst e
      rw [Context.mergeBytes_rest]
      rfl
    · rfl

/-- A read element takes the oldest entry (R69). -/
theorem State.moveElement_entries (h : k.d.direction = .read) :
    ((s.moveElement c k).context c).entries = (s.context c).entries.tail := by
  unfold State.moveElement; simp [h]

/-- The record of `c` after the advance (R12 to R14, R38). -/
theorem State.advanceTake_context : (s.advanceTake c k).context c = { s.context c with
    take := (k.d.advance k.pos).1
    progress := (s.context c).progress + 1
    passes := if (k.d.advance k.pos).2 then (s.context c).passes + 1 else (s.context c).passes
    hold := .none
    shortfall := 0 } := by
  unfold State.advanceTake; dsimp only; split <;> simp

theorem State.advanceTake_slots : (s.advanceTake c k).slots = s.slots := by
  unfold State.advanceTake; dsimp only; split <;> simp

theorem State.advanceTake_responses : (s.advanceTake c k).responses = s.responses := by
  unfold State.advanceTake; dsimp only; split <;> simp

theorem State.advanceTake_links : (s.advanceTake c k).links = s.links := by
  unfold State.advanceTake; dsimp only; split <;> simp

/-! ### The state in which a taken element has moved -/

/-- Steps 3 and 4 of the taking (R38). -/
def State.afterMove : State := (s.moveElement c k).advanceTake c k

theorem State.afterMove_slot (u : HostTag) :
    (s.afterMove c k).slot u = if k.tag = u then some (k.newSlot (s.context c)) else s.slot u := by
  rw [← s.moveElement_slot c k]
  simp only [State.slot, State.afterMove, State.advanceTake_slots]

theorem State.afterMove_responses : (s.afterMove c k).responses = s.responses := by
  rw [State.afterMove, State.advanceTake_responses, State.moveElement_rest]

theorem State.afterMove_pacing (f : Ctx) : (s.afterMove c k).pacing f = s.pacing f := by
  have h : (s.afterMove c k).links = s.links := by
    rw [State.afterMove, State.advanceTake_links, State.moveElement_rest]
  simp only [State.pacing, h]

theorem State.afterMove_take : ((s.afterMove c k).context c).take = (k.d.advance k.pos).1 := by
  rw [State.afterMove, State.advanceTake_context]

theorem State.afterMove_progress : ((s.afterMove c k).context c).progress = (s.context c).progress + 1 := by
  rw [State.afterMove, State.advanceTake_context, State.moveElement_context]

theorem State.afterMove_state : ((s.afterMove c k).context c).state = (s.context c).state := by
  rw [State.afterMove, State.advanceTake_context, State.moveElement_context]

theorem State.afterMove_service : ((s.afterMove c k).context c).service = (s.context c).service := by
  rw [State.afterMove, State.advanceTake_context, State.moveElement_context]

theorem State.afterMove_headChecked : ((s.afterMove c k).context c).headChecked = (s.context c).headChecked := by
  rw [State.afterMove, State.advanceTake_context, State.moveElement_context]

theorem State.afterMove_entries (h : k.d.direction = .read) :
    ((s.afterMove c k).context c).entries = (s.context c).entries.tail := by
  rw [State.afterMove, State.advanceTake_context, ← s.moveElement_entries c k h]

variable {s c k}

theorem State.elementTake_taken (hk : s.nextElement c = some k) (hm : s.mayTake c k = true) :
    s.elementTake c = ((s.afterMove c k).afterTake c).settle := by
  simp [State.elementTake, hk, hm, State.afterMove]

/-- A head with demand has passed its check. -/
theorem State.Waiting.checked (w : s.Waiting c k) : (s.context c).headChecked = true := by
  have h := w.demand
  cases hc : (s.context c).headChecked with
  | true => rfl
  | false => simp [State.demand, hc] at h

/-- The elements that the head still needs after this one. -/
theorem State.Waiting.afterMove_demand (w : s.Waiting c k) :
    (s.afterMove c k).demand c = k.head.count.getD 0 - (k.head.taken + 1) := by
  obtain ⟨rest, hs⟩ := State.service_of_head w.head
  have hh : (s.afterMove c k).head c = some (k.tag, k.newSlot (s.context c)) :=
    State.head_of_service (by rw [s.afterMove_service, hs]) (by rw [s.afterMove_slot]; simp)
  obtain ⟨htaken, hcount, -⟩ := k.newSlot_fields (s.context c)
  simp only [State.demand, s.afterMove_headChecked, w.checked, hh, htaken, hcount, if_true]

/-- While the walk goes on, the heads after an answered one meet their checks (R37). -/
theorem State.afterTake_goesOn {r : State} (h : (if r.demand c = 0 then r.finishHead c (r.headReason c) else r) = s)
    (ht : (s.context c).take ≠ .exhausted) (hp : (s.context c).progress ≠ Config.progressLimit) :
    r.afterTake c = s.promote c := by
  unfold State.afterTake
  simp only [h, ht, hp, if_false]

/-- A head that still needs elements keeps its place (R38). -/
theorem State.Waiting.afterTake_more (w : s.Waiting c k) (hl : s.linkLost c = false) {p : Vector Nat 4} {b : Bool}
    (ha : k.d.advance k.pos = (.at p, b)) (hp : (s.context c).progress + 1 ≠ 2 ^ 48 - 1) {n : Nat}
    (hn : k.head.count = some n) (hlt : k.head.taken + 1 < n) : (s.afterMove c k).afterTake c = s.afterMove c k := by
  have hdem : (s.afterMove c k).demand c ≠ 0 := by
    rw [w.afterMove_demand, hn, Option.getD_some]; omega
  rw [State.afterTake_goesOn (if_neg hdem) (by rw [s.afterMove_take, ha]; simp) (by rw [s.afterMove_progress]; exact hp)]
  refine State.promote_of_checked (by rw [s.afterMove_headChecked, w.checked]) ?_
  rw [← hl]
  simp only [State.linkLost, s.afterMove_state, s.afterMove_pacing]

/-! ### Bytes written into a list -/

/-- Writing bytes from a position on changes the bytes there and no other (R123). -/
theorem getElem?_writeBytes (data bytes : List Byte) (i j : Nat) : (writeBytes data i bytes)[j]? =
    if j < data.length ∧ i ≤ j ∧ j < i + bytes.length then bytes[j - i]? else data[j]? := by
  induction bytes generalizing data i with
  | nil => simp [writeBytes]
  | cons b bs ih =>
    rw [writeBytes, ih, List.length_set, List.length_cons]
    by_cases hji : j = i
    · subst hji
      rw [if_neg (by omega), List.getElem?_set_self']
      by_cases hj : j < data.length
      · rw [if_pos (by omega)]; simp [hj]
      · rw [if_neg (by omega)]; simp [Nat.le_of_not_lt hj]
    · rw [List.getElem?_set_ne (Ne.symm hji)]
      by_cases hin : j < data.length ∧ i ≤ j ∧ j < i + (bs.length + 1)
      · rw [if_pos hin, if_pos (by omega), show j - i = (j - (i + 1)) + 1 by omega, List.getElem?_cons_succ]
      · rw [if_neg hin, if_neg (by omega)]

/-- Settles O13: the element moves by steps 3 and 4, and the head that needs more keeps its place. -/
theorem takenReadElementIsPlaced : Obligations.TakenReadElementIsPlaced := by
  refine ⟨fun s c k p b n e rest hk hm hd ha hp hn hlt he => ?_, fun k => ?_, getElem?_writeBytes⟩
  · have w := State.waiting_of_nextElement hk
    have htake := State.elementTake_taken hk hm
    rw [w.afterTake_more (w.mayTake_iff.mp hm).1 ha hp hn hlt] at htake
    have r := (s.afterMove c k).settle_resettled
    have hslot (u : HostTag) := (r.slot u).trans (s.afterMove_slot c k u)
    refine ⟨_, congrArg Host.Outcome.next htake, ?_, by rw [r.service, s.afterMove_service],
      by rw [r.responses, s.afterMove_responses], fun u hu => ?_, fun data hdata => ?_, fun hpo => ?_⟩
    · simpa [s.afterMove_entries c k hd, he] using (r.contexts c).entries
    · rw [hslot, if_neg (Ne.symm hu)]
    · rw [hslot, if_pos rfl]; simp [Taking.newSlot, hd, he, hdata, Taking.readSlot]
    · rw [hslot, if_pos rfl]; simp [Taking.newSlot, hd, he, hpo, Taking.readSlot]
  · intro r hr hal hlen hlt
    have hok := HostRequest.elements_read ⟨hal, hlen⟩ hr
    show r.offset + r.elementSlot k.d.hostSize k.head.taken * k.d.hostSize = _
    simp [HostRequest.elementSlot, hok, HostRequest.offset, hlt]

/-! ### The last element of a head (R40) -/

/-- Answering an OPEN transaction. -/
theorem State.answer_open {s : State} {t : HostTag} {x : HostSlot} (hx : s.slot t = some x) (ho : x.answer = none)
    (why : Option HostReason) : (s.answer t why).responses = s.responses ++ [t]
      ∧ (s.answer t why).slot t
        = some { x with answer := some ⟨if why.isNone then .okay else .fault, x.readData⟩ } := by
  cases why with
  | none =>
    rw [State.answer_okay hx ho]
    exact ⟨rfl, State.slot_setSlot_self s t _⟩
  | some r =>
    rw [State.answer_fault hx ho, State.post_slot]
    exact ⟨by simp, State.slot_setSlot_self s t _⟩

/-- Finishing an OPEN head answers it and removes it. -/
theorem State.finishHead_open {s : State} {c : Ctx} {t : HostTag} {rest : List HostTag} {x : HostSlot}
    (hs : (s.context c).service = t :: rest) (hx : s.slot t = some x) (ho : x.answer = none)
    (why : Option HostReason) : (s.finishHead c why).responses = s.responses ++ [t]
      ∧ (s.finishHead c why).slot t
        = some { x with answer := some ⟨if why.isNone then .okay else .fault, x.readData⟩ }
      ∧ ((s.finishHead c why).context c).service = rest := by
  obtain ⟨hr, hslot⟩ := State.answer_open hx ho why
  have hrest : ((s.finishHead c why).context c).service = rest := by rw [s.finishHead_service, hs]; rfl
  rw [s.finishHead_cons hs] at hrest ⊢
  exact ⟨hr, hslot, hrest⟩

/-- Settles O15: the demand is 0, so the head is answered by `headReason`, and no later head check takes an answer
back. -/
theorem completedHeadIsAnswered : Obligations.CompletedHeadIsAnswered := by
  intro s c k p b hk hm ha hp hn hopen
  have w := State.waiting_of_nextElement hk
  obtain ⟨rest, hs⟩ := State.service_of_head w.head
  have hdem : (s.afterMove c k).demand c = 0 := by rw [w.afterMove_demand, hn]; simp
  have hslot : (s.afterMove c k).slot k.tag = some (k.newSlot (s.context c)) := by rw [s.afterMove_slot]; simp
  have hserv : ((s.afterMove c k).context c).service = k.tag :: rest := by rw [s.afterMove_service, hs]
  have hreason : (s.afterMove c k).headReason c
      = if (k.newSlot (s.context c)).poisoned then some .memory else none := by
    simp only [State.headReason, State.head_of_service hserv hslot]
  obtain ⟨hresp, hans, hrest⟩ := State.finishHead_open hserv hslot
    ((k.newSlot_fields _).2.2.trans hopen) ((s.afterMove c k).headReason c)
  have f := (s.afterMove c k).finishHead_serves c ((s.afterMove c k).headReason c)
  have hgo := State.afterTake_goesOn (if_pos hdem)
    (by rw [f.take, s.afterMove_take, ha]; simp) (by rw [f.progress, s.afterMove_progress]; exact hp)
  have htake := State.elementTake_taken hk hm
  rw [hgo] at htake
  generalize (s.afterMove c k).finishHead c ((s.afterMove c k).headReason c) = s₁ at hresp hans hrest htake
  have q := s₁.promote_servesQueue c
  have r := (s₁.promote c).settle_resettled
  obtain ⟨y, hy, hya⟩ := (q.upholds.trans (r.upholds _)).answers _ _ _ hans rfl
  refine ⟨_, y, congrArg Host.Outcome.next htake, ?_, hy, ?_, ?_, ?_⟩
  · rw [← s.afterMove_responses c k, ← hresp]
    exact (q.upholds.trans (r.upholds _)).responses
  · rw [r.service, hs, List.tail_cons, ← hrest]
    exact q.serves.service c
  · rw [hya, hreason]
    cases hd : k.d.direction with
    | write => cases hpo : k.head.poisoned <;> simp [Taking.newSlot, hd, hpo]
    | read =>
      obtain ⟨e, es, he, hst⟩ := (Context.dataOrSpace_read hd).mp (w.mayTake_iff.mp hm).2.2.2
      rcases hst with ⟨data, hst⟩ | hst
      · cases hpo : k.head.poisoned <;> simp [Taking.newSlot, Taking.readSlot, hd, he, hst, hpo]
      · simp [Taking.newSlot, Taking.readSlot, hd, he, hst]
  · rw [hya]
    cases hd : k.d.direction with
    | write => simp [Taking.newSlot, hd]
    | read =>
      obtain ⟨e, es, he, hst⟩ := (Context.dataOrSpace_read hd).mp (w.mayTake_iff.mp hm).2.2.2
      rcases hst with ⟨data, hst⟩ | hst <;> simp [Taking.newSlot, Taking.readSlot, hd, he, hst]

/-! ### A held head that runs out of time (R42, R105) -/

/-- The time since a Timebase value, as a number modulo 2^32 (R162). -/
theorem State.since_eq (s : State) (t : BitVec 32) :
    s.since t = (s.timebase.toNat + 2 ^ 32 - t.toNat) % 2 ^ 32 := by
  have := t.isLt
  rw [State.since, BitVec.toNat_sub]
  congr 1
  omega

/-- Settles O29: the head is finished early, and what follows upholds its answer. -/
theorem paceTimeoutFinishesHead : Obligations.PaceTimeoutFinishesHead := by
  intro s c h rest x ha hhold hs hx ho held
  have hout : s.headTimedOut c = true ↔ s.settings.paceLimitUs ≠ 0 ∧ s.settings.paceLimitUs < held := by
    have hh : ((s.context c).hold == .pace || (s.context c).hold == .lead) = true := by simpa using hhold
    have hsince : s.since (s.context c).holdStart = held := s.since_eq _
    simp [State.headTimedOut, ha, hs, hh, hsince]
  refine ⟨fun h₀ hlt => ?_, fun hno => ?_⟩
  · have hexec : exec (.paceTimeout c) s = .next (s.finishEarly c .paceTimeout).settle := by
      show Host.Outcome.next _ = _
      rw [if_pos (hout.mpr ⟨h₀, hlt⟩)]
    obtain ⟨hresp, hans, hrest⟩ := State.finishHead_open hs hx ho (some .paceTimeout)
    have q := State.promote_servesQueue (s.finishHead c (some .paceTimeout)) c
    have r := (s.finishEarly c .paceTimeout).settle_resettled
    have all := s.finishEarly_servesQueue c .paceTimeout
    have up := State.Upholds.trans q.upholds (r.upholds _)
    obtain ⟨y, hy, hya⟩ := up.answers _ _ _ hans rfl
    refine ⟨_, y, hexec, hresp ▸ up.responses, hy, hya, ?_, ?_, ?_, ?_, ?_, fun hroom => ?_⟩
    · rw [r.service, ← hrest]; exact q.serves.service c
    · rw [r.state, all.serves.state, ha]
    · rw [r.take, all.serves.take]
    · rw [r.progress, all.serves.progress]
    · rw [r.links, all.links]
    · have hev : (s.finishHead c (some .paceTimeout)).events
          = s.events ++ [s.hostFaultRecord h x .paceTimeout] := by
        rw [s.finishHead_cons hs, State.answer_fault hx ho]
        simp only [State.popHead, State.setContext_events]
        rw [State.post_room (by exact hroom)]
        rfl
      rw [← hev]
      exact up.events
  · show Host.Outcome.next _ = _
    rw [if_neg]
    rw [hout]
    omega

end Sys2Proof.Machine
end

section
/-! SET_PACING and CLEAR_PACING (O46). -/

namespace Sys2Proof.Machine

open Sys2Proof

/-! ### Awaited commands by what their owners give back (R155) -/

section Awaited

variable {s : State} {k : Command} {ps : List Byte} {b : Byte} {owner : List Byte → State → Reply}
  (h : s.link.awaits k ps) (hk : k.paramLen = some (ps.length + 1))
include h hk

theorem State.command_refused {e : Status} (ho : owner (ps ++ [b]) s = s.refuse e) :
    s.command k b owner = { s with link := s.link.answered b e [] } := by
  rw [State.command_awaited h hk, ho]; rfl

theorem State.command_done {u : State} {st : Status} {bytes : List Byte}
    (ho : owner (ps ++ [b]) s = { state := u, status := st, bytes := bytes }) :
    s.command k b owner = { u with link := s.link.answered b st bytes } := by
  rw [State.command_awaited h hk, ho]

end Awaited

theorem ownClearPacing_badIndex {s : State} {ps : List Byte} (h : 8 ≤ argByte ps 0) :
    ownClearPacing ps s = s.refuse .badIndex := by
  simp only [ownClearPacing, indexOf_out h]

theorem ownClearPacing_done {s : State} {ps : List Byte} {f : Ctx} (h : f.val = argByte ps 0) : ownClearPacing ps s
    = { state := (s.setPacing f none).settle, status := .ok, bytes := encodeLE 1 (s.pacing f).isSome.toNat } := by
  simp only [ownClearPacing, indexOf_eq h]

theorem ownSetPacing_badIndex {s : State} {ps : List Byte} (h : 8 ≤ argByte ps 0 ∨ 8 ≤ argByte ps 1) :
    ownSetPacing ps s = s.refuse .badIndex := by
  unfold ownSetPacing
  rcases h with h | h
  · rw [indexOf_out h]
  · rw [indexOf_out (n := 8) h]
    cases indexOf 8 (argByte ps 0) <;> rfl

/-! ### The checks of SET_PACING (R96) -/

/-- The path that the cycle check follows does not use the link that the command writes: it ends where it would. -/
theorem State.pathReaches_setPacing (s : State) (f : Ctx) (x : Option PacingLink) (n : Nat) (c : Ctx) :
    (s.setPacing f x).pathReaches f n c = true ↔ ∃ m < n, s.ahead m c = some f := by
  induction n generalizing c with
  | zero => simp [State.pathReaches]
  | succ n ih =>
    by_cases hc : c = f
    · subst hc
      simp only [State.pathReaches, beq_self_eq_true, Bool.true_or, true_iff]
      exact ⟨0, Nat.succ_pos n, rfl⟩
    · have step : (∃ m < n + 1, s.ahead m c = some f) ↔ ∃ m < n, s.ahead (m + 1) c = some f := by
        constructor
        · rintro ⟨m, hm, h⟩
          cases m with
          | zero => exact absurd (Option.some.inj h) hc
          | succ m => exact ⟨m, by omega, h⟩
        · rintro ⟨m, hm, h⟩
          exact ⟨m + 1, by omega, h⟩
      rw [step, State.pathReaches, beq_false_of_ne hc, Bool.false_or, State.pacing_setPacing, if_neg (Ne.symm hc)]
      cases hl : s.pacing c with
      | none => simp [State.ahead, hl]
      | some l => simpa [State.ahead, hl] using ih l.leader

theorem PacingLink.limitOk_iff {l : PacingLink} : l.limitOk = true ↔ ∀ n, l.lead = some n → l.gap < n := by
  unfold PacingLink.limitOk
  cases l.lead <;> simp

section Checks

variable {s : State} {f : Ctx} {l : PacingLink}

theorem State.pacingCheck_loop (h : ∃ n < 8, s.ahead n l.leader = some f) : s.pacingCheck f l = some .loop := by
  unfold State.pacingCheck
  rw [if_pos ((s.pathReaches_setPacing f _ 8 l.leader).mpr h)]
  split <;> rfl

variable (h : ¬ ∃ n < 8, s.ahead n l.leader = some f)
include h

theorem State.pacingCheck_noLoop : s.pacingCheck f l = if !l.limitOk then some .limit else none := by
  unfold State.pacingCheck
  rw [if_neg fun e => h ⟨0, by omega, congrArg some e⟩,
    if_neg (mt (s.pathReaches_setPacing f (some l) 8 l.leader).mp h)]

end Checks

/-! ### A head under a link that the command leaves BROKEN (R107) -/

/-- A checked head that needs elements under a BROKEN link is answered LEADER_LOST. -/
theorem State.promote_checked_lost {s : State} {c : Ctx} {d : Descriptor} {h : HostTag} {rest : List HostTag}
    {x : HostSlot} {n : Nat} (ha : (s.context c).state = .active) (hd : (s.context c).snapshot = some d)
    (hs : (s.context c).service = h :: rest) (hx : s.slot h = some x) (hc : (s.context c).headChecked = true)
    (hn : x.count = some n) (hlt : x.taken < n) (hl : s.linkLost c = true) :
    s.promote c = State.promoteN c (rest.length + 1) (s.finishHead c (some .leaderLost)) := by
  have hh := State.head_of_service hs hx
  have hdem : 0 < s.demand c := by simp only [State.demand, hc, hh, hn, if_true, Option.getD_some]; omega
  rw [State.promote, hs]
  exact State.promoteN_checked_lost ha hd hh (rest.length + 1) hc hl hdem

/-- An accepted SET_PACING or CLEAR_PACING leaves every hold decided afresh. -/
theorem State.promoted_holdsAfresh (s : State) (f : Ctx) (l : Option PacingLink) :
    s.HoldsAfresh ((s.setPacing f l).promote f).settle := by
  have q := (s.setPacing f l).promote_servesQueue f
  refine State.settle_holdsAfresh_from s _ (by rw [q.serves.timebase]; rfl) fun c hs => ?_
  refine ⟨?_, by rw [q.serves.holdStart, State.setPacing_context]⟩
  by_cases hc : c = f
  · subst hc
    have := (s.setPacing c l).promoteN_hold c (((s.setPacing c l).context c).service.length + 1)
    exact this hs
  · rw [q.others c hc, State.setPacing_context]

/-- SET_PACING that passes its checks. -/
theorem ownSetPacing_accepted {s : State} {ps : List Byte} {f l : Ctx} (hf : indexOf 8 (argByte ps 0) = some f)
    (hl : indexOf 8 (argByte ps 1) = some l) (hc : s.pacingCheck f (s.newLink ps l) = none) : ownSetPacing ps s
      = { state := ((s.setPacing f (some (s.newLink ps l))).promote f).settle, status := .ok } := by
  simp [ownSetPacing, hf, hl, hc]

theorem ownSetPacing_refused {s : State} {ps : List Byte} {f l : Ctx} (hf : indexOf 8 (argByte ps 0) = some f)
    (hl : indexOf 8 (argByte ps 1) = some l) {e : Status} (hc : s.pacingCheck f (s.newLink ps l) = some e) :
    ownSetPacing ps s = s.refuse e := by
  simp [ownSetPacing, hf, hl, hc]

/-- Settles O46: the checks one by one, and `settle`'s laws on the state with the link written. -/
theorem pacingLinkIsSetAndCleared : Obligations.PacingLinkIsSetAndCleared := by
  refine ⟨fun s hw => ⟨fun b hb => ?_, fun b f hf => ?_⟩, fun s fo le g₀ g₁ m₀ m₁ hw => ?_⟩
  · exact congrArg _ (State.command_refused hw rfl (ownClearPacing_badIndex hb))
  · have hbit : encodeLE 1 (s.pacing f).isSome.toNat = [if s.pacing f = none then 0 else 1] := by
      cases hp : s.pacing f <;> simp
    have hown := ownClearPacing_done (s := s) (ps := [] ++ [b]) hf
    rw [hbit] at hown
    exact ⟨_, State.settle_settles _, State.settle_holdsAfresh_from s _ rfl fun c _ => ⟨rfl, rfl⟩,
      congrArg _ (State.command_done hw rfl hown)⟩
  intro gap limit refused
  refine ⟨fun hout => congrArg _ (State.command_refused hw rfl (ownSetPacing_badIndex hout)), ?_⟩
  intro f l hf hl loop tight link
  have hif : indexOf 8 (argByte ([fo, le, g₀, g₁, m₀] ++ [m₁]) 0) = some f := indexOf_eq hf
  have hil : indexOf 8 (argByte ([fo, le, g₀, g₁, m₀] ++ [m₁]) 1) = some l := indexOf_eq hl
  have hlink : s.newLink ([fo, le, g₀, g₁, m₀] ++ [m₁]) l = link := rfl
  have hlimit : link.limitOk = true ↔ ¬ tight := by
    rw [PacingLink.limitOk_iff]
    show (∀ n, (if limit = 0 then none else some limit) = some n → gap < n) ↔ ¬ (limit ≠ 0 ∧ limit ≤ gap)
    by_cases h : limit = 0 <;> simp [h]
  refine ⟨fun h => ?_, fun h ht => ?_, fun h ht => ?_⟩
  · exact congrArg _ (State.command_refused hw rfl (ownSetPacing_refused hif hil (State.pacingCheck_loop h)))
  · have hc : s.pacingCheck f (s.newLink ([fo, le, g₀, g₁, m₀] ++ [m₁]) l) = some .limit := by
      rw [State.pacingCheck_noLoop h, hlink]
      simpa using fun e => hlimit.mp e ht
    exact congrArg _ (State.command_refused hw rfl (ownSetPacing_refused hif hil hc))
  · have hc : s.pacingCheck f (s.newLink ([fo, le, g₀, g₁, m₀] ++ [m₁]) l) = none := by
      rw [State.pacingCheck_noLoop h, hlink]
      simpa using hlimit.mpr ht
    have hown := ownSetPacing_accepted hif hil hc
    rw [hlink] at hown
    have hexec : exec (.setPacing m₁) s = _ := congrArg Host.Outcome.next (State.command_done hw rfl hown)
    have q := (s.setPacing f (some link)).promote_servesQueue f
    have r := ((s.setPacing f (some link)).promote f).settle_resettled
    have hpac (g : Ctx) : (((s.setPacing f (some link)).promote f).settle).pacing g
        = if f = g then some link else s.pacing g := by
      rw [r.pacing, q.pacing, State.pacing_setPacing]
    refine ⟨_, hexec, by rw [hpac, if_pos rfl], fun f' hf' => by rw [hpac, if_neg (Ne.symm hf')],
      s.promoted_holdsAfresh f _, fun c => ⟨?_, ?_, ?_⟩, fun hquiet => ?_,
      fun h rest x n d hb ha hd hs hx ho hck hn hlt => ?_⟩
    · rw [r.state, q.serves.state, State.setPacing_context]
    · rw [r.progress, q.serves.progress, State.setPacing_context]
    · rw [r.launchQ, q.serves.launchQ, State.setPacing_context]
    · have hp : (s.setPacing f (some link)).promote f = s.setPacing f (some link) := by
        rcases hquiet with hs | ha | ⟨hck, harm⟩
        · exact State.promote_of_empty hs
        · exact State.promote_of_inactive ha
        · refine State.promote_of_checked hck ?_
          simp [State.linkLost, harm]
      rw [hp]
      exact State.settle_settles _
    · have hlost : (s.setPacing f (some link)).linkLost f = true := by
        simp [State.linkLost, ha, hb]
      have hp := State.promote_checked_lost (s := s.setPacing f (some link)) ha hd hs hx hck hn hlt hlost
      obtain ⟨hresp, hans, -⟩ := State.finishHead_open (s := s.setPacing f (some link)) hs hx ho (some .leaderLost)
      have up := (State.promoteN_servesQueue ((s.setPacing f (some link)).finishHead f (some .leaderLost)) f
        (rest.length + 1)).upholds
      rw [← hp] at up
      have up := up.trans (r.upholds _)
      obtain ⟨y, hy, hya⟩ := up.answers _ _ _ hans rfl
      exact ⟨hresp ▸ up.responses, y, hy, hya⟩

end Sys2Proof.Machine
end

section
/-! Whole Service Queues answered, links broken and contexts faulted (R34, R36, R106, R107). -/

namespace Sys2Proof.Machine

open Sys2Proof

/-! ### Answering a list of transactions with one reason (R36, R128) -/

/-- From `s` to `t` exactly the transactions of `q` are answered FAULT with one reason, in this order, and nothing else
happens to slots, responses and, while there is room, events. -/
structure State.AnswersFault (s t : State) (q : List HostTag) (why : HostReason) : Prop where
  responses : t.responses = s.responses ++ q
  answered : ∀ u ∈ q, ∀ x, s.slot u = some x → t.slot u = some { x with answer := some ⟨.fault, x.readData⟩ }
  others : ∀ u ∉ q, t.slot u = s.slot u
  events : s.events.length + q.length ≤ 32 →
    t.events = s.events ++ q.filterMap fun u => (s.slot u).map fun x => s.hostFaultRecord u x why
  timebase : t.timebase = s.timebase

/-- HOST_FAULT reads the Timebase of the state only. -/
theorem State.hostFaultRecord_congr {s t : State} (h : t.timebase = s.timebase) (u : HostTag) (x : HostSlot)
    (why : HostReason) : t.hostFaultRecord u x why = s.hostFaultRecord u x why := by
  simp only [State.hostFaultRecord, State.record, h]

theorem State.AnswersFault.nil (s : State) (why : HostReason) : s.AnswersFault s [] why :=
  ⟨by simp, fun u h => absurd h List.not_mem_nil, fun _ _ => rfl, fun _ => by simp, rfl⟩

/-- One list after another. -/
theorem State.AnswersFault.append {s t r : State} {p q : List HostTag} {why : HostReason} (h : s.AnswersFault t p why)
    (k : t.AnswersFault r q why) (hd : ∀ u ∈ p, u ∉ q) : s.AnswersFault r (p ++ q) why where
  responses := by rw [k.responses, h.responses, List.append_assoc]
  answered := fun u hu x hx => by
    rcases List.mem_append.mp hu with hp | hq
    · rw [k.others u (hd u hp), h.answered u hp x hx]
    · rw [k.answered u hq x (by rw [h.others u fun hp => hd u hp hq, hx])]
  others := fun u hu => by
    simp only [List.mem_append, not_or] at hu
    rw [k.others u hu.2, h.others u hu.1]
  events := fun hroom => by
    rw [List.length_append] at hroom
    have hev := h.events (by omega)
    have hle := List.length_filterMap_le (fun u => (s.slot u).map fun x => s.hostFaultRecord u x why) p
    have hsame : (q.filterMap fun u => (t.slot u).map fun x => t.hostFaultRecord u x why)
        = q.filterMap fun u => (s.slot u).map fun x => s.hostFaultRecord u x why := by
      refine List.filterMap_congr fun u hu => ?_
      rw [h.others u fun hp => hd u hp hu]
      simp only [State.hostFaultRecord_congr h.timebase]
    rw [k.events (by rw [hev, List.length_append]; omega), hev, hsame, List.filterMap_append, List.append_assoc]
  timebase := k.timebase.trans h.timebase

/-- Answering one OPEN transaction. -/
theorem State.answer_answersFault {s : State} {u : HostTag} {x : HostSlot} (hx : s.slot u = some x)
    (ho : x.answer = none) (why : HostReason) : s.AnswersFault (s.answer u (some why)) [u] why where
  responses := (State.answer_open hx ho _).1
  answered := fun v hv y hy => by
    obtain rfl := List.mem_singleton.mp hv
    obtain rfl := Option.some.inj (hx.symm.trans hy)
    exact (State.answer_open hx ho _).2
  others := fun v hv => s.answer_slot_of_ne (t := u) (u := v) (fun e => hv (by simp [e])) _
  events := fun hroom => by
    rw [State.answer_fault hx ho, State.post_room (by exact Nat.lt_of_succ_le hroom)]
    simp [hx]
  timebase := s.answer_timebase u _

theorem State.Waits.tail {s : State} {u : HostTag} {q : List HostTag} (h : s.Waits (u :: q)) : s.Waits q :=
  ⟨h.1.of_cons, fun v hv => h.2 v (List.mem_cons_of_mem _ hv)⟩

/-- Waiting depends on the slots of the transactions only. -/
theorem State.Waits.congr {s t : State} {q : List HostTag} (h : s.Waits q) (hs : ∀ u ∈ q, t.slot u = s.slot u) :
    t.Waits q := ⟨h.1, fun u hu => by rw [hs u hu]; exact h.2 u hu⟩

/-- Answering a list of waiting transactions. -/
theorem State.answers_answersFault (why : HostReason) (q : List HostTag) (s : State) (h : s.Waits q) :
    s.AnswersFault (q.foldl (fun s t => s.answer t (some why)) s) q why := by
  induction q generalizing s with
  | nil => exact .nil s why
  | cons u q ih =>
    obtain ⟨x, hx, ho⟩ := h.2 u (List.mem_cons_self ..)
    have hu : u ∉ q := (List.nodup_cons.mp h.1).1
    have one := State.answer_answersFault hx ho why
    have rest := ih (s.answer u (some why)) (h.tail.congr fun v hv => one.others v (by
      rintro hm; obtain rfl := List.mem_singleton.mp hm; exact hu hv))
    exact one.append rest fun v hv => by obtain rfl := List.mem_singleton.mp hv; exact hu

/-- Answering a whole Service Queue (R36). -/
theorem State.answerAll_answersFault {s : State} {c : Ctx} (h : s.Waits (s.context c).service) (why : HostReason) :
    s.AnswersFault (s.answerAll c why) (s.context c).service why :=
  let k := State.answers_answersFault why (s.context c).service s h
  ⟨k.responses, k.answered, k.others, k.events, k.timebase⟩

/-- What comes after upholds the answers. -/
theorem State.AnswersFault.answeredFault {s t r : State} {q : List HostTag} {why : HostReason}
    (h : s.AnswersFault t q why) {ks : List EventKind} (k : State.Upholds ks t r) : s.AnsweredFault r q why := by
  refine ⟨h.responses ▸ k.responses, fun u hu x hx => ?_, fun hroom => h.events hroom ▸ k.events⟩
  exact k.answers u _ _ (h.answered u hu x hx) rfl

/-- Answering a whole queue serves it. -/
theorem State.answerAll_servesQueue (s : State) (c : Ctx) (why : HostReason) :
    State.ServesQueue c s (s.answerAll c why) := by
  have folds (q : List HostTag) (r : State) (hq : ∀ u ∈ q, u ∈ (r.context c).service) :
      State.ServesQueue c r (q.foldl (fun s t => s.answer t (some why)) r) := by
    induction q generalizing r with
    | nil => exact .refl r c
    | cons u q ih =>
      refine (r.answer_servesQueue (hq u (List.mem_cons_self ..)) _).trans (ih _ fun v hv => ?_)
      rw [State.answer_context]; exact hq v (List.mem_cons_of_mem _ hv)
  exact (folds _ s fun _ hu => hu).trans
    (State.ServesQueue.setContext _ (State.setService_serves _ c [] List.nil_suffix _ _ _))

/-! ### A Service Queue under a BROKEN link (R107) -/

/-- From `s` to `t` the head `u` of `c`, whose slot held `x`, was answered and left the queue. -/
structure State.HeadLeft (c : Ctx) (u : HostTag) (x : HostSlot) (why : Option HostReason) (s t : State) : Prop where
  queue : State.ServesQueue c s t
  service : (t.context c).service = (s.context c).service.tail
  unchecked : (t.context c).headChecked = false
  responses : t.responses = s.responses ++ [u]
  answered : ∃ y, t.slot u = some y ∧ y.answer = some ⟨if why.isNone then .okay else .fault, x.readData⟩
  others : ∀ v, v ≠ u → t.slot v = s.slot v

section HeadLeft

variable {s : State} {c : Ctx} {u : HostTag} {rest : List HostTag} {x : HostSlot}
  (hs : (s.context c).service = u :: rest) (hx : s.slot u = some x) (ho : x.answer = none)
include hs hx ho

theorem State.finishHead_headLeft (why : Option HostReason) :
    State.HeadLeft c u x why s (s.finishHead c why) := by
  obtain ⟨hr, hslot, -⟩ := State.finishHead_open hs hx ho why
  refine ⟨s.finishHead_servesQueue c why, s.finishHead_service c why, ?_, hr, ⟨_, hslot, rfl⟩, fun v hv => ?_⟩
  · rw [s.finishHead_cons hs]; simp [State.popHead]
  · rw [s.finishHead_cons hs]
    exact s.answer_slot_of_ne (Ne.symm hv) why

/-- A head that was accepted just before. -/
theorem State.acceptFinish_headLeft (k : Nat) (why : Option HostReason) :
    State.HeadLeft c u x why s (((s.acceptHead c u x k).fillAt c).finishHead c why) := by
  have hh := State.head_of_service hs hx
  obtain ⟨-, hserv⟩ := s.acceptFill_context c u x k
  have hslot (v : HostTag) : ((s.acceptHead c u x k).fillAt c).slot v
      = if u = v then some { x with count := some k, taken := 0 } else s.slot v := by
    simp [State.fillAt, State.acceptHead, State.slot_setSlot]
  have left := State.finishHead_headLeft (hserv.trans hs) ((hslot u).trans (if_pos rfl)) ho why
  refine ⟨(s.acceptFill_servesQueue hh k).trans left.queue, by rw [left.service, hserv], left.unchecked,
    left.responses, left.answered, fun v hv => ?_⟩
  rw [left.others v hv, hslot, if_neg (Ne.symm hv)]

/-- Under a BROKEN link an unchecked head is answered by its head check or LEADER_LOST, and leaves. -/
theorem State.promoteN_lost_step {d : Descriptor} (ha : (s.context c).state = .active)
    (hd : (s.context c).snapshot = some d) (hc : (s.context c).headChecked = false) (hl : s.linkLost c = true)
    (n : Nat) : ∃ t why, State.promoteN c (n + 1) s = State.promoteN c n t ∧ State.HeadLeft c u x why s t
      ∧ ∀ m, d.headCheck x.req = .ok (m + 1) → why = some .leaderLost := by
  have hh := State.head_of_service hs hx
  cases hk : d.headCheck x.req with
  | error why =>
    exact ⟨_, _, State.promoteN_refused ha hd hh n hc hk, State.finishHead_headLeft hs hx ho _, fun m h => by cases h⟩
  | ok k =>
    cases k with
    | zero =>
      exact ⟨_, _, State.promoteN_okay ha hd hh n hc hk, State.finishHead_headLeft hs hx ho _, fun m h => by cases h⟩
    | succ k =>
      exact ⟨_, _, State.promoteN_lost ha hd hh n hc hk hl, State.acceptFinish_headLeft hs hx ho _ _, fun _ _ => rfl⟩

end HeadLeft

/-- R107: under a BROKEN link every waiting transaction of an ACTIVE walk is answered, in arrival order, and those
that need elements are answered FAULT. -/
theorem State.promoteN_lost_queue {c : Ctx} {d : Descriptor} (q : List HostTag) (n : Nat) (hn : q.length ≤ n)
    (s : State) (hs : (s.context c).service = q) (ha : (s.context c).state = .active)
    (hd : (s.context c).snapshot = some d) (hc : (s.context c).headChecked = false) (hl : s.linkLost c = true)
    (hw : s.Waits q) : ((State.promoteN c n s).context c).service = []
      ∧ (State.promoteN c n s).responses = s.responses ++ q
      ∧ ∀ u ∈ q, ∀ x m, s.slot u = some x → d.headCheck x.req = .ok (m + 1) →
        ∃ y, (State.promoteN c n s).slot u = some y ∧ y.answer = some ⟨.fault, x.readData⟩ := by
  induction q generalizing s n with
  | nil =>
    rw [State.promoteN_empty hs, hs]
    exact ⟨rfl, by simp, fun u hu => absurd hu List.not_mem_nil⟩
  | cons u q ih =>
    obtain ⟨n, rfl⟩ := Nat.exists_eq_succ_of_ne_zero (Nat.ne_of_gt (Nat.lt_of_lt_of_le (Nat.succ_pos q.length) hn))
    obtain ⟨x, hx, ho⟩ := hw.2 u (List.mem_cons_self ..)
    have hu : u ∉ q := (List.nodup_cons.mp hw.1).1
    obtain ⟨t, why, e, left, hlost⟩ := State.promoteN_lost_step hs hx ho ha hd hc hl n
    obtain ⟨hempty, hresp, hans⟩ := ih n (by simpa using hn) t (by rw [left.service, hs]; rfl)
      (by rw [left.queue.serves.state, ha]) (by rw [left.queue.serves.snapshot, hd]) left.unchecked
      (by rw [left.queue.linkLost, hl]) (hw.tail.congr fun v hv => left.others v fun e => hu (e ▸ hv))
    rw [e]
    refine ⟨hempty, by rw [hresp, left.responses, List.append_assoc]; rfl, fun v hv y m hy hk => ?_⟩
    rcases List.mem_cons.mp hv with rfl | hv
    · obtain rfl := Option.some.inj (hx.symm.trans hy)
      obtain ⟨z, hz, hza⟩ := left.answered
      rw [hlost m hk] at hza
      exact (t.promoteN_servesQueue c n).upholds.answers _ _ _ hz hza
    · exact hans v hv y m (by rw [left.others v fun e => hu (e ▸ hv), hy]) hk

/-! ### Breaking links (R106) -/

/-- The state in which the link `l` of follower `f` has just been broken and reported. -/
def State.linkCut (s : State) (c : Ctx) (why : Reason) (f : Ctx) (l : PacingLink) : State :=
  (s.setPacing f (some { l with state := .broken })).post (s.lostRecordOf c f why)

theorem State.breakLink_armed {s : State} {c f : Ctx} {l : PacingLink} (hl : s.pacing f = some l) (hc : l.leader = c)
    (ha : l.state = .armed) (why : Reason) : State.breakLink c why s f = (s.linkCut c why f l).promote f := by
  unfold State.breakLink
  rw [hl]
  dsimp only
  rw [if_pos ⟨hc, ha⟩]
  rfl

theorem State.breakLink_spared {s : State} {c f : Ctx}
    (h : ∀ l, s.pacing f = some l → l.leader = c → l.state ≠ .armed) (why : Reason) :
    State.breakLink c why s f = s := by
  unfold State.breakLink
  split
  · rfl
  · rename_i l hl
    rw [if_neg fun e => h l hl e.1 e.2]

/-- A link is broken by this break, or spared. -/
theorem State.breakLink_cases (s : State) (c : Ctx) (why : Reason) (f : Ctx) : State.breakLink c why s f = s
    ∨ ∃ l, s.pacing f = some l ∧ l.leader = c ∧ l.state = .armed
      ∧ State.breakLink c why s f = (s.linkCut c why f l).promote f := by
  by_cases h : ∀ l, s.pacing f = some l → l.leader = c → l.state ≠ .armed
  · exact .inl (State.breakLink_spared h why)
  · push Not at h
    obtain ⟨l, hl, hc, ha⟩ := h
    exact .inr ⟨l, hl, hc, ha, State.breakLink_armed hl hc ha why⟩

section LinkCut

variable (s : State) (c : Ctx) (why : Reason) (f : Ctx) (l : PacingLink)

@[simp] theorem State.linkCut_context (g : Ctx) : (s.linkCut c why f l).context g = s.context g := by
  simp [State.linkCut]

@[simp] theorem State.linkCut_slot (u : HostTag) : (s.linkCut c why f l).slot u = s.slot u := by simp [State.linkCut]

@[simp] theorem State.linkCut_timebase : (s.linkCut c why f l).timebase = s.timebase := by simp [State.linkCut]

@[simp] theorem State.linkCut_responses : (s.linkCut c why f l).responses = s.responses := by simp [State.linkCut]

theorem State.linkCut_pacing (g : Ctx) : (s.linkCut c why f l).pacing g
    = if f = g then some { l with state := .broken } else s.pacing g := by
  simp [State.linkCut, State.pacing_setPacing]

theorem State.setPacing_upholds (g : Ctx) (m : Option PacingLink) (ks : List EventKind) :
    State.Upholds ks s (s.setPacing g m) :=
  ⟨List.prefix_refl _, List.prefix_refl _, fun _ y _ hy ha => ⟨y, hy, ha⟩, fun _ he => .inl he⟩

theorem State.linkCut_upholds : State.Upholds [.hostFault, .leaderLost] s (s.linkCut c why f l) := by
  exact (s.setPacing_upholds f _ _).trans (State.post_upholds _ _ (by simp [State.lostRecordOf]))

end LinkCut

/-- From `s` to `t` only links of the followers `fs` broke, and only their Service Queues were served. -/
structure State.BreaksAmong (fs : List Ctx) (s t : State) : Prop where
  serves : s.Serves t
  upholds : State.Upholds [.hostFault, .leaderLost] s t
  others : ∀ g, g ∉ fs → t.context g = s.context g ∧ t.pacing g = s.pacing g
  slots : ∀ u, (∀ g ∈ fs, u ∉ (s.context g).service) → t.slot u = s.slot u

theorem State.BreaksAmong.nil (s : State) (fs : List Ctx) : State.BreaksAmong fs s s :=
  ⟨.refl s, .refl s _, fun _ _ => ⟨rfl, rfl⟩, fun _ _ => rfl⟩

theorem State.BreaksAmong.append {fs gs : List Ctx} {s t r : State} (h : State.BreaksAmong fs s t)
    (k : State.BreaksAmong gs t r) : State.BreaksAmong (fs ++ gs) s r where
  serves := h.serves.trans k.serves
  upholds := h.upholds.trans k.upholds
  others := fun g hg => by
    simp only [List.mem_append, not_or] at hg
    exact ⟨(k.others g hg.2).1.trans (h.others g hg.1).1, (k.others g hg.2).2.trans (h.others g hg.1).2⟩
  slots := fun u hu => by
    rw [k.slots u fun g hg hm => hu g (List.mem_append_right _ hg) ((h.serves.service g).subset hm),
      h.slots u fun g hg => hu g (List.mem_append_left _ hg)]

theorem State.breakLink_breaksAmong (s : State) (c : Ctx) (why : Reason) (f : Ctx) :
    State.BreaksAmong [f] s (State.breakLink c why s f) := by
  have serves := s.breakLink_serves c why f
  rcases s.breakLink_cases c why f with e | ⟨l, -, -, -, e⟩
  · rw [e]; exact .nil s _
  · have q := (s.linkCut c why f l).promote_servesQueue f
    rw [e] at serves ⊢
    refine ⟨serves, (s.linkCut_upholds c why f l).trans (q.upholds.mono (by simp)), fun g hg => ?_, fun u hu => ?_⟩
    · have hne : g ≠ f := by simpa using hg
      exact ⟨by rw [q.others g hne, State.linkCut_context],
        by rw [q.pacing, State.linkCut_pacing, if_neg (Ne.symm hne)]⟩
    · rw [q.slots u (by simpa using hu f (List.mem_singleton_self f)), State.linkCut_slot]

theorem State.breakLinksIn_breaksAmong (c : Ctx) (why : Reason) (fs : List Ctx) (s : State) :
    State.BreaksAmong fs s (fs.foldl (State.breakLink c why) s) := by
  induction fs generalizing s with
  | nil => exact .nil s _
  | cons f fs ih => exact (s.breakLink_breaksAmong c why f).append (ih _)

/-- A link that `c` does not lead stays as it is (R106). -/
theorem State.breakLinksIn_spares {c g : Ctx} (why : Reason) (fs : List Ctx) (s : State)
    (h : ∀ l, s.pacing g = some l → l.leader ≠ c) : (fs.foldl (State.breakLink c why) s).pacing g = s.pacing g := by
  induction fs generalizing s with
  | nil => rfl
  | cons f fs ih =>
    have one : (State.breakLink c why s f).pacing g = s.pacing g := by
      by_cases e : g = f
      · subst e
        rw [State.breakLink_spared fun l hl hc => absurd hc (h l hl)]
      · exact ((s.breakLink_breaksAmong c why f).others g (by simpa using e)).2
    rw [List.foldl_cons, ih _ (by rw [one]; exact h), one]

theorem State.lostRecordOf_congr {s t : State} (f : Ctx) (ht : t.timebase = s.timebase)
    (hs : (t.context f).serial = (s.context f).serial) (c : Ctx) (why : Reason) :
    t.lostRecordOf c f why = s.lostRecordOf c f why := by
  simp only [State.lostRecordOf, ht, hs]

/-- A posted record that finds room stands at the tail. -/
theorem State.linkCut_events {s : State} (h : s.events.length < 32) (c : Ctx) (why : Reason) (f : Ctx)
    (l : PacingLink) : (s.linkCut c why f l).events = s.events ++ [s.lostRecordOf c f why] := by
  unfold State.linkCut
  rw [State.post_room (by exact h)]
  rfl

/-- `c` leads the ARMED link of `f`. -/
def State.leads (s : State) (c f : Ctx) : Bool := (s.pacing f).any fun l => l.leader == c && l.state == .armed

theorem State.leads_iff {s : State} {c f : Ctx} :
    s.leads c f = true ↔ ∃ l, s.pacing f = some l ∧ l.leader = c ∧ l.state = .armed := by
  cases h : s.pacing f <;> simp [State.leads, h]

theorem State.followersOf_eq (s : State) (c : Ctx) : s.followersOf c = allCtx.filter (s.leads c) := rfl

/-- LEADER_LOST is posted for each ARMED link in the order of the followers, while there is room (R106). -/
theorem State.breakLinksIn_records (c : Ctx) (why : Reason) (fs : List Ctx) (s : State) (hn : fs.Nodup)
    (hroom : (fs.foldl (State.breakLink c why) s).events.length < 32) : ∃ new,
      (fs.foldl (State.breakLink c why) s).events = s.events ++ new
      ∧ ((fs.filter (s.leads c)).map fun f => s.lostRecordOf c f why).Sublist new := by
  induction fs generalizing s with
  | nil => exact ⟨[], by simp, by simp⟩
  | cons f fs ih =>
    obtain ⟨hf, hn'⟩ := List.nodup_cons.mp hn
    have one := s.breakLink_breaksAmong c why f
    have more := State.breakLinksIn_breaksAmong c why fs (State.breakLink c why s f)
    rw [List.foldl_cons] at hroom ⊢
    obtain ⟨new, hnew, hsub⟩ := ih _ hn' hroom
    have same : ((fs.filter ((State.breakLink c why s f).leads c)).map fun g =>
          (State.breakLink c why s f).lostRecordOf c g why)
        = (fs.filter (s.leads c)).map fun g => s.lostRecordOf c g why := by
      have ne {g : Ctx} (hg : g ∈ fs) : g ∉ [f] := fun e => hf (List.mem_singleton.mp e ▸ hg)
      rw [List.filter_congr fun g hg => show _ = s.leads c g by rw [State.leads, (one.others g (ne hg)).2]; rfl]
      refine List.map_congr_left fun g _ => ?_
      exact State.lostRecordOf_congr g one.serves.timebase (one.serves.serial g) c why
    rw [same] at hsub
    by_cases hlead : s.leads c f = true
    · obtain ⟨l, hl, hc, ha⟩ := State.leads_iff.mp hlead
      have hlen : s.events.length < 32 :=
        Nat.lt_of_le_of_lt (one.serves.events.trans more.serves.events).length_le hroom
      obtain ⟨mid, hmid⟩ := ((s.linkCut c why f l).promote_serves f).events
      rw [State.linkCut_events hlen, ← State.breakLink_armed hl hc ha why] at hmid
      refine ⟨[s.lostRecordOf c f why] ++ mid ++ new, by rw [hnew, ← hmid]; simp, ?_⟩
      rw [List.filter_cons_of_pos hlead, List.map_cons]
      exact List.Sublist.cons_cons _ (hsub.trans (List.sublist_append_right mid new))
    · obtain ⟨mid, hmid⟩ := one.serves.events
      refine ⟨mid ++ new, by rw [hnew, ← hmid, List.append_assoc], ?_⟩
      rw [List.filter_cons_of_neg hlead]
      exact hsub.trans (List.sublist_append_right mid new)

theorem allCtx_nodup : allCtx.Nodup := by decide

/-- A follower whose head needs elements has its whole Service Queue answered as its link breaks (R107). -/
theorem State.breakLink_heads {s : State} {c f : Ctx} {why : Reason} {h : HostTag} {rest : List HostTag} {x : HostSlot}
    {n : Nat} (hlead : s.leads c f = true) (ha : (s.context f).state = .active)
    (hd : (s.context f).snapshot.isSome = true) (hs : (s.context f).service = h :: rest) (hw : s.Waits (h :: rest))
    (hck : (s.context f).headChecked = true) (hx : s.slot h = some x) (hn : x.count = some n) (hlt : x.taken < n) :
    (∃ y, (State.breakLink c why s f).slot h = some y ∧ y.answer = some ⟨.fault, x.readData⟩)
      ∧ ((State.breakLink c why s f).context f).service = []
      ∧ (State.breakLink c why s f).responses = s.responses ++ h :: rest
      ∧ ((State.breakLink c why s f).events.length < 32 →
        (s.events ++ [s.lostRecordOf c f why, s.hostFaultRecord h x .leaderLost])
          <+: (State.breakLink c why s f).events) := by
  obtain ⟨l, hl, hc, harm⟩ := State.leads_iff.mp hlead
  obtain ⟨d, hd⟩ := Option.isSome_iff_exists.mp hd
  obtain ⟨x', hx', ho⟩ := hw.2 h (List.mem_cons_self ..)
  obtain rfl := Option.some.inj (hx.symm.trans hx')
  have hh : h ∉ rest := (List.nodup_cons.mp hw.1).1
  have hcut : (s.linkCut c why f l).linkLost f = true := by
    simp [State.linkLost, ha, State.linkCut_pacing]
  rw [State.breakLink_armed hl hc harm why]
  have hs' : ((s.linkCut c why f l).context f).service = h :: rest := by simpa using hs
  have hx'' : (s.linkCut c why f l).slot h = some x := by simpa using hx
  rw [State.promote_checked_lost (by simpa using ha) (by simpa using hd) hs' hx'' (by simpa using hck) hn hlt hcut]
  have left := State.finishHead_headLeft hs' hx'' ho (some .leaderLost)
  obtain ⟨hempty, hresp, -⟩ := State.promoteN_lost_queue rest (rest.length + 1) (Nat.le_succ _)
    ((s.linkCut c why f l).finishHead f (some .leaderLost)) (by rw [left.service, hs']; rfl)
    (by rw [left.queue.serves.state]; simpa using ha) (by rw [left.queue.serves.snapshot]; simpa using hd)
    left.unchecked (by rw [left.queue.linkLost, hcut]) (hw.tail.congr fun v hv => by
      rw [left.others v fun e => hh (e ▸ hv), State.linkCut_slot])
  have up := (((s.linkCut c why f l).finishHead f (some .leaderLost)).promoteN_servesQueue f (rest.length + 1)).upholds
  obtain ⟨y, hy, hya⟩ := left.answered
  refine ⟨up.answers _ _ _ hy hya, hempty, ?_, fun hroom => ?_⟩
  · rw [hresp, left.responses]; simp
  · have hcutroom : (s.linkCut c why f l).events.length < 32 :=
      Nat.lt_of_le_of_lt (left.queue.upholds.events.trans up.events).length_le hroom
    have hroom₀ : s.events.length < 32 :=
      Nat.lt_of_le_of_lt (s.linkCut_upholds c why f l).events.length_le hcutroom
    have hev : ((s.linkCut c why f l).finishHead f (some .leaderLost)).events
        = s.events ++ [s.lostRecordOf c f why, s.hostFaultRecord h x .leaderLost] := by
      rw [State.finishHead_cons _ hs', State.answer_fault hx'' ho]
      simp only [State.popHead, State.setContext_events]
      rw [State.post_room (by exact hcutroom)]
      simp only [State.linkCut_events hroom₀, State.setSlot_events, List.append_assoc, List.cons_append,
        List.nil_append, State.hostFaultRecord_congr (s.linkCut_timebase c why f l)]
    rw [← hev]
    exact up.events

/-- THE law of a break: every link that `c` leads is BROKEN, with its record and its answers (R106, R107). -/
theorem State.breakLinks_linksLost (s : State) (c : Ctx) (why : Reason) : s.LinksLost (s.breakLinks c why) c why where
  broken := fun f l hl hc => by
    rcases (s.breakLinks_serves c why).links f with e | ⟨m, hm, e⟩
    · have hb := s.breakLinks_broken c why (e.trans hl) hc
      rw [e, hl, ← hb]
    · obtain rfl := Option.some.inj (hl.symm.trans hm)
      exact e
  others := fun f h => State.breakLinksIn_spares why allCtx s h
  records := fun hroom => by
    obtain ⟨new, hnew, hsub⟩ := State.breakLinksIn_records c why allCtx s allCtx_nodup hroom
    show List.Sublist _ (allCtx.foldl (State.breakLink c why) s).events
    rw [hnew, s.followersOf_eq]
    exact hsub.trans (List.sublist_append_right _ _)
  heads := fun f h rest x n hf hne ha hd hs hw hdis hck hx hn hlt => by
    obtain ⟨pre, post, hsplit⟩ := List.append_of_mem (mem_allCtx f)
    have hnodup := hsplit ▸ allCtx_nodup
    have hpre : f ∉ pre := fun hm => (List.nodup_append.mp hnodup).2.2 f hm f (List.mem_cons_self ..) rfl
    have hpost : f ∉ post := (List.nodup_cons.mp (List.nodup_append.mp hnodup).2.1).1
    have before := State.breakLinksIn_breaksAmong c why pre s
    have after := State.breakLinksIn_breaksAmong c why post
      (State.breakLink c why (pre.foldl (State.breakLink c why) s) f)
    have whole : s.breakLinks c why = post.foldl (State.breakLink c why)
        (State.breakLink c why (pre.foldl (State.breakLink c why) s) f) := by
      rw [State.breakLinks, hsplit, List.foldl_append, List.foldl_cons]
    rw [← whole] at after
    generalize pre.foldl (State.breakLink c why) s = s₁ at before after
    have hctx := (before.others f hpre).1
    have hpac := (before.others f hpre).2
    have hslot (u : HostTag) (hu : u ∈ h :: rest) : s₁.slot u = s.slot u :=
      before.slots u fun g hg => hdis g (fun e => hpre (e ▸ hg)) u hu
    have hlead : s₁.leads c f = true := by
      have := (List.mem_filter.mp hf).2
      rw [State.leads, hpac]; exact this
    obtain ⟨⟨y, hy, hya⟩, hempty, hresp, hev⟩ := State.breakLink_heads (why := why) hlead (by rw [hctx, ha])
      (by rw [hctx, hd]) (by rw [hctx, hs]) (hw.congr hslot) (by rw [hctx, hck])
      (by rw [hslot h (List.mem_cons_self ..), hx]) hn hlt
    have hctx₂ := (after.others f hpost).1
    have serves := s.breakLinks_serves c why
    refine ⟨after.upholds.answers _ _ _ hy hya, by rw [hctx₂, hempty], fun u hu => ?_, by rw [serves.state, ha],
      serves.take f, serves.progress f, fun hroom => ?_⟩
    · refine after.upholds.responses.subset ?_
      rw [hresp]
      exact List.mem_append_right _ hu
    · have hroom₁ := Nat.lt_of_le_of_lt after.upholds.events.length_le hroom
      obtain ⟨more, hmore⟩ := (hev hroom₁).trans after.upholds.events
      rw [State.lostRecordOf_congr f before.serves.timebase (before.serves.serial f) c why,
        State.hostFaultRecord_congr before.serves.timebase] at hmore
      exact ⟨s₁.events, more, hmore⟩

/-! ### The same break seen from an earlier or a later state -/

/-- From `s` to `s'` only the context `c` and the transactions of its Service Queue have changed, as far as a break of
the links that it leads can see. -/
structure State.SameFollowers (c : Ctx) (s s' : State) : Prop where
  timebase : s'.timebase = s.timebase
  links : ∀ f, s'.pacing f = s.pacing f
  contexts : ∀ f, f ≠ c → s'.context f = s.context f
  serial : (s'.context c).serial = (s.context c).serial
  service : (s'.context c).service ⊆ (s.context c).service
  slots : ∀ u, u ∉ (s.context c).service → s'.slot u = s.slot u

theorem State.LinksLost.source {s s' t : State} {c : Ctx} {why : Reason} (h : s'.LinksLost t c why)
    (k : State.SameFollowers c s s') : s.LinksLost t c why := by
  have hserial (f : Ctx) : (s'.context f).serial = (s.context f).serial := by
    by_cases e : f = c
    · exact e ▸ k.serial
    · rw [k.contexts f e]
  have hrec (f : Ctx) : s'.lostRecordOf c f why = s.lostRecordOf c f why :=
    State.lostRecordOf_congr f k.timebase (hserial f) c why
  have hfol : s'.followersOf c = s.followersOf c := by simp only [State.followersOf, k.links]
  refine ⟨fun f l hl => h.broken f l (by rw [k.links, hl]), fun f hf => ?_, fun hroom => ?_,
    fun f u rest x n hf hne ha hd hs hw hdis hck hx hn hlt => ?_⟩
  · rw [h.others f (by simpa only [k.links] using hf), k.links]
  · simpa only [hfol, hrec] using h.records hroom
  · have hctx := k.contexts f hne
    have hslot (v : HostTag) (hv : v ∈ u :: rest) : s'.slot v = s.slot v :=
      k.slots v (hdis c (Ne.symm hne) v hv)
    have hdis' (g : Ctx) (hg : g ≠ f) (v : HostTag) (hv : v ∈ u :: rest) : v ∉ (s'.context g).service := by
      by_cases e : g = c
      · subst e; exact fun hm => hdis g hg v hv (k.service hm)
      · rw [k.contexts g e]; exact hdis g hg v hv
    have := h.heads f u rest x n (hfol ▸ hf) hne (by rw [hctx, ha]) (by rw [hctx, hd]) (by rw [hctx, hs])
      (hw.congr hslot) hdis' (by rw [hctx, hck]) (by rw [hslot u (List.mem_cons_self ..), hx]) hn hlt
    simpa only [hctx, hrec, State.hostFaultRecord_congr k.timebase] using this

/-- What comes after changes no link, answer or record, and no place of a follower's walk. -/
theorem State.LinksLost.target {s t t' : State} {c : Ctx} {why : Reason} (h : s.LinksLost t c why)
    (hl : ∀ f, t'.pacing f = t.pacing f) (hs : ∀ u, t'.slot u = t.slot u) (hr : t'.responses = t.responses)
    (he : t'.events = t.events) (hc : ∀ f, f ≠ c → (t'.context f).service = (t.context f).service
      ∧ (t'.context f).state = (t.context f).state ∧ (t'.context f).take = (t.context f).take
      ∧ (t'.context f).progress = (t.context f).progress) : s.LinksLost t' c why where
  broken := fun f l hp hc => by rw [hl]; exact h.broken f l hp hc
  others := fun f hf => by rw [hl]; exact h.others f hf
  records := fun hroom => by rw [he] at hroom ⊢; exact h.records hroom
  heads := fun f u rest x n hf hne ha hd hsv hw hdis hck hx hn hlt => by
    obtain ⟨h₁, h₂, h₃, h₄⟩ := hc f hne
    rw [hs, h₁, h₂, h₃, h₄, hr, he]
    exact h.heads f u rest x n hf hne ha hd hsv hw hdis hck hx hn hlt

theorem State.LinksLost.resettled {s t t' : State} {c : Ctx} {why : Reason} (h : s.LinksLost t c why)
    (r : t.Resettled t') : s.LinksLost t' c why :=
  h.target r.pacing r.slot r.responses r.events fun f _ => ⟨r.service f, r.state f, r.take f, r.progress f⟩

/-- Serving the queue of `c`, and rewriting its record, is beyond what a break can see. -/
theorem State.ServesQueue.sameFollowers {s t : State} {c : Ctx} (h : State.ServesQueue c s t) :
    State.SameFollowers c s t :=
  ⟨h.serves.timebase, h.pacing, h.others, h.serves.serial c, (h.serves.service c).subset, h.slots⟩

theorem State.SameFollowers.setContext {s t : State} {c : Ctx} (h : State.SameFollowers c s t) {x : Context}
    (hs : x.serial = (s.context c).serial) (hv : x.service ⊆ (s.context c).service) :
    State.SameFollowers c s (t.setContext c x) :=
  ⟨h.timebase, h.links, fun f e => by rw [State.context_setContext_of_ne _ (Ne.symm e), h.contexts f e], by simpa using hs,
    by simpa using hv, h.slots⟩

/-! ### Entry to FAULTED (R34) -/

theorem State.breakLinks_upholds (s : State) (c : Ctx) (why : Reason) :
    State.Upholds [.hostFault, .leaderLost] s (s.breakLinks c why) :=
  (State.breakLinksIn_breaksAmong c why allCtx s).upholds

theorem State.setContext_upholds (s : State) (c : Ctx) (x : Context) (ks : List EventKind) :
    State.Upholds ks s (s.setContext c x) :=
  ⟨List.prefix_refl _, List.prefix_refl _, fun _ y _ hy ha => ⟨y, hy, ha⟩, fun _ he => .inl he⟩

/-- The state of a context as it enters FAULTED, before its leader links break. -/
def State.faulting (s : State) (c : Ctx) (why : FaultReason) : State :=
  (s.answerAll c .contextFaulted).setContext c { (s.answerAll c .contextFaulted).context c with
    state := .faulted, faultReason := some why, region := none }

theorem State.faultContext_eq (s : State) (c : Ctx) (why : FaultReason) :
    s.faultContext c why = (s.faulting c why).breakLinks c why.toReason := rfl

theorem State.faultContext_upholds (s : State) (c : Ctx) (why : FaultReason) :
    State.Upholds [.hostFault, .leaderLost] s (s.faultContext c why) :=
  (((s.answerAll_servesQueue c .contextFaulted).upholds.mono (by simp)).trans
    (State.setContext_upholds _ c _ _)).trans (State.breakLinks_upholds _ c _)

/-- THE law of a fault (R24, R34, R36, R106). -/
theorem State.faultContext_faultedBy (s : State) (c : Ctx) (why : FaultReason) :
    s.FaultedBy (s.faultContext c why) c why := by
  have q := s.answerAll_servesQueue c .contextFaulted
  have hf : (s.faulting c why).context c = { (s.answerAll c .contextFaulted).context c with
    state := .faulted, faultReason := some why, region := none } := by simp [State.faulting]
  have b := (s.faulting c why).breakLinks_serves c why.toReason
  have hb := b.contexts c
  rw [s.faultContext_eq]
  refine ⟨⟨?_, ?_, ?_⟩, ⟨?_, ?_, ?_, ?_⟩, ?_, fun hw => ?_, ?_⟩
  · rw [hb, hf]
  · rw [hb, hf]
  · rw [hb, hf]
  · rw [hb, hf]; exact q.serves.serial c
  · rw [hb, hf]; exact q.serves.progress c
  · rw [hb, hf]; show ((s.answerAll c .contextFaulted).context c).endCause = _; rw [q.serves.contexts c]
  · rw [hb, hf]; show ((s.answerAll c .contextFaulted).context c).descIndex = _; rw [q.serves.contexts c]
  · refine List.suffix_nil.mp ?_
    have := b.service c
    rw [hf] at this
    simpa using this
  · exact (State.answerAll_answersFault hw .contextFaulted).answeredFault
      ((State.setContext_upholds _ c _ [.hostFault, .leaderLost]).trans (State.breakLinks_upholds _ c _))
  · refine ((s.faulting c why).breakLinks_linksLost c why.toReason).source ?_
    exact q.sameFollowers.setContext (q.serves.serial c) (by simp)

/-- What an earlier state must share with `s'` for a fault to look the same from it. -/
structure State.SameFaulted (c : Ctx) (s s' : State) : Prop where
  timebase : s'.timebase = s.timebase
  links : ∀ f, s'.pacing f = s.pacing f
  contexts : ∀ f, f ≠ c → s'.context f = s.context f
  kept : (s'.context c).serial = (s.context c).serial ∧ (s'.context c).progress = (s.context c).progress
    ∧ (s'.context c).endCause = (s.context c).endCause ∧ (s'.context c).descIndex = (s.context c).descIndex
  service : (s'.context c).service = (s.context c).service
  slots : ∀ u, s'.slot u = s.slot u
  responses : s'.responses = s.responses
  events : s'.events = s.events

theorem State.SameFaulted.sameFollowers {c : Ctx} {s s' : State} (h : State.SameFaulted c s s') :
    State.SameFollowers c s s' :=
  ⟨h.timebase, h.links, h.contexts, h.kept.1, by rw [h.service]; exact fun _ h => h, fun u _ => h.slots u⟩

theorem State.AnsweredFault.source {s s' t : State} {q : List HostTag} {why : HostReason}
    (h : s'.AnsweredFault t q why) (ht : s'.timebase = s.timebase) (hs : ∀ u, s'.slot u = s.slot u)
    (hr : s'.responses = s.responses) (he : s'.events = s.events) : s.AnsweredFault t q why := by
  simpa only [State.AnsweredFault, ht, hs, hr, he, State.hostFaultRecord_congr ht] using h

theorem State.FaultedBy.source {s s' t : State} {c : Ctx} {why : FaultReason} (h : s'.FaultedBy t c why)
    (k : State.SameFaulted c s s') : s.FaultedBy t c why where
  state := h.state
  kept := by
    obtain ⟨k₁, k₂, k₃, k₄⟩ := k.kept
    rw [← k₁, ← k₂, ← k₃, ← k₄]; exact h.kept
  service := h.service
  answered := fun hw => by
    rw [← k.service] at hw ⊢
    exact (h.answered (hw.congr fun u _ => k.slots u)).source k.timebase k.slots k.responses k.events
  links := h.links.source k.sameFollowers

theorem State.FaultedBy.resettled {s t t' : State} {c : Ctx} {why : FaultReason} (h : s.FaultedBy t c why)
    (r : t.Resettled t') : s.FaultedBy t' c why where
  state := by rw [r.state, r.faultReason, r.region]; exact h.state
  kept := by rw [r.serial, r.progress, r.endCause, r.descIndex]; exact h.kept
  service := by rw [r.service]; exact h.service
  answered := fun hw => by
    obtain ⟨h₁, h₂, h₃⟩ := h.answered hw
    refine ⟨by rw [r.responses]; exact h₁, fun u hu x hx => ?_, fun hroom => by rw [r.events]; exact h₃ hroom⟩
    rw [r.slot]; exact h₂ u hu x hx
  links := h.links.resettled r

/-- A fault of a context that leads no ARMED link and has nothing waiting: its own record is all that changes. -/
theorem State.breakLinks_none {s : State} {c : Ctx} (h : ∀ f l, s.pacing f = some l → l.leader = c → l.state = .broken)
    (why : Reason) : s.breakLinks c why = s := by
  have folds (fs : List Ctx) : fs.foldl (State.breakLink c why) s = s := by
    induction fs with
    | nil => rfl
    | cons f fs ih =>
      rw [List.foldl_cons, State.breakLink_spared (fun l hl hc ha => by rw [h f l hl hc] at ha; cases ha) why, ih]
  exact folds allCtx

theorem State.answerAll_nil {s : State} {c : Ctx} (h : (s.context c).service = []) (why : HostReason) :
    s.answerAll c why = s.setContext c { s.context c with
      service := [], headChecked := false, hold := .none, shortfall := 0 } := by
  simp [State.answerAll, h]

theorem State.faultContext_quiet {s : State} {c : Ctx} (hs : (s.context c).service = [])
    (hl : ∀ f l, s.pacing f = some l → l.leader = c → l.state = .broken) (why : FaultReason) :
    s.faultContext c why = s.setContext c { s.context c with
      state := .faulted, faultReason := some why, region := none, service := [], headChecked := false, hold := .none,
      shortfall := 0 } := by
  rw [s.faultContext_eq, State.faulting, State.answerAll_nil hs, State.setContext_setContext,
    State.context_setContext_self]
  refine (State.breakLinks_none ?_ _).trans rfl
  exact hl

end Sys2Proof.Machine
end

section
/-! Launches and their refusals: QUEUE_WALK and CLEAR_FAULT (O22, O26). -/

namespace Sys2Proof.Machine

open Sys2Proof

/-! ### The link apart (R155) -/

/-- A command's answer on the link is in no other table. -/
theorem State.link_context (s : State) (f : Frame) (c : Ctx) : State.context { s with link := f } c = s.context c := rfl

theorem State.link_slot (s : State) (f : Frame) (u : HostTag) : State.slot { s with link := f } u = s.slot u := rfl

theorem State.link_track (s : State) (f : Frame) (m : MemTag) : State.track { s with link := f } m = s.track m := rfl

/-! ### Index bytes (R178) -/

/-- A number below 256 is what its byte reads as. -/
theorem argByte_head {n v : Nat} (h : v < n) (hn : n ≤ 256) (ps : List Byte) :
    argByte (BitVec.ofNat 8 v :: ps) 0 = v := by
  simp only [argByte, List.getD_cons_zero, BitVec.toNat_ofNat]
  exact Nat.mod_eq_of_lt (by omega)

theorem indexOf_ctx (c : Ctx) (ps : List Byte) : indexOf 8 (argByte (BitVec.ofNat 8 c.val :: ps) 0) = some c :=
  indexOf_eq (argByte_head c.isLt (by omega) ps).symm

theorem indexOf_desc (c : Ctx) (i : DescIx) :
    indexOf 64 (argByte [BitVec.ofNat 8 c.val, BitVec.ofNat 8 i.val] 1) = some i :=
  indexOf_eq (argByte_head (n := 64) i.isLt (by omega) []).symm

/-! ### What a launch reads and leaves (R17, R23, R24) -/

/-- The launch checks read the apertures only. -/
theorem State.launchCheck_congr {s t : State} (h : t.apertures = s.apertures) (d : Descriptor) :
    t.launchCheck d = s.launchCheck d := by
  have ha : t.aperture = s.aperture := funext fun i => by simp only [State.aperture, h]
  have hm : t.meetsAperture d.region = s.meetsAperture d.region := by
    simp only [State.meetsAperture, State.apertureList, ha]
  simp only [State.launchCheck, hm]

theorem State.desc_congr {s t : State} (h : t.descs = s.descs) (i : DescIx) : t.desc i = s.desc i := by
  simp only [State.desc, h]

/-- The LAUNCH_REFUSED record (R24, R168). -/
def State.refusalRecord (s : State) (c : Ctx) (i : DescIx) (why : RefusalReason) : EventRecord where
  kind := .launchRefused
  timestamp := s.timebase
  context := some c
  descriptor := some i
  reason := some why.toReason

/-- The state in which an accepted launch has started the walk and its heads are to be checked. -/
def State.relaunched (s : State) (c : Ctx) (i : DescIx) : State :=
  (s.setContext c ((s.context c).launched i (s.desc i))).rearm c

theorem State.launch_accepted {s : State} {i : DescIx} (h : s.launchCheck (s.desc i) = none) (c : Ctx) :
    s.launch c i = (s.relaunched c i).promote c := by
  unfold State.launch
  rw [h]
  rfl

theorem State.launch_refused {s : State} {i : DescIx} {why : RefusalReason} (h : s.launchCheck (s.desc i) = some why)
    (c : Ctx) : s.launch c i = (s.post (s.refusalRecord c i why)).faultContext c .launchRefused := by
  unfold State.launch
  rw [h]
  rfl

/-- Re-arming writes the follower's own link (R109). -/
theorem State.rearm_eq (s : State) (c : Ctx) : s.rearm c = s.setPacing c ((s.pacing c).map fun l =>
    if l.state = .broken ∧ (s.context l.leader).state ≠ .faulted then { l with state := .armed } else l) := by
  have back (s : State) : s.setPacing c (s.pacing c) = s := by
    have h : (s.setPacing c (s.pacing c)).links = s.links := State.links_ext fun g => by
      rw [State.pacing_setPacing]; split
      · rename_i e; rw [e]
      · rfl
    calc s.setPacing c (s.pacing c) = { s with links := (s.setPacing c (s.pacing c)).links } := rfl
      _ = s := by rw [h]
  unfold State.rearm
  cases hl : s.pacing c with
  | none =>
    have := back s
    rw [hl] at this
    exact this.symm
  | some l =>
    dsimp only [Option.map_some]
    split
    · rfl
    · have := back s
      rw [hl] at this
      exact this.symm

theorem State.relaunched_context (s : State) (c : Ctx) (i : DescIx) :
    (s.relaunched c i).context c = (s.context c).launched i (s.desc i) := by
  rw [State.relaunched, State.rearm_eq]; simp

theorem State.relaunched_upholds (s : State) (c : Ctx) (i : DescIx) (ks : List EventKind) :
    State.Upholds ks s (s.relaunched c i) := by
  rw [State.relaunched, State.rearm_eq]
  exact (State.setContext_upholds _ c _ ks).trans (State.setPacing_upholds _ c _ ks)

/-- The kinds of record that a launch may post. -/
def launchKinds : List EventKind := [.hostFault, .leaderLost, .launchRefused]

theorem State.launch_upholds (s : State) (c : Ctx) (i : DescIx) : State.Upholds launchKinds s (s.launch c i) := by
  cases h : s.launchCheck (s.desc i) with
  | none =>
    rw [State.launch_accepted h]
    exact (s.relaunched_upholds c i _).trans ((State.promote_servesQueue _ c).upholds.mono (by simp [launchKinds]))
  | some why =>
    rw [State.launch_refused h]
    exact (s.post_upholds _ (by simp [launchKinds, State.refusalRecord])).trans
      ((State.faultContext_upholds _ c _).mono (by simp [launchKinds]))

section LaunchFields

variable {s : State} {i : DescIx}

/-- What an accepted launch leaves in its context (R23). -/
theorem State.launch_accepted_fields (h : s.launchCheck (s.desc i) = none) (c : Ctx) :
    ((s.launch c i).context c).state = .active ∧ ((s.launch c i).context c).descIndex = some i
      ∧ ((s.launch c i).context c).snapshot = some (s.desc i)
      ∧ ((s.launch c i).context c).serial = (s.context c).serial + 1 ∧ ((s.launch c i).context c).progress = 0
      ∧ ((s.launch c i).context c).region = some (s.desc i).region
      ∧ ((s.launch c i).context c).faultReason = none
      ∧ ((s.launch c i).context c).launchQ = (s.context c).launchQ := by
  have k := ((s.relaunched c i).promote_serves c).contexts c
  rw [s.relaunched_context] at k
  rw [State.launch_accepted h, k]
  exact ⟨rfl, rfl, rfl, rfl, rfl, rfl, rfl, rfl⟩

/-- A refused launch faults its context (R24). -/
theorem State.launch_refused_faultedBy {why : RefusalReason} (h : s.launchCheck (s.desc i) = some why) (c : Ctx) :
    (s.post (s.refusalRecord c i why)).FaultedBy (s.launch c i) c .launchRefused := by
  rw [State.launch_refused h]
  exact State.faultContext_faultedBy _ c _

theorem State.faultContext_launchQ (s : State) (c : Ctx) (why : FaultReason) :
    ((s.faultContext c why).context c).launchQ = (s.context c).launchQ := by
  rw [s.faultContext_eq, (State.breakLinks_serves _ c _).launchQ, State.faulting, State.context_setContext_self]
  exact (s.answerAll_serves c _).launchQ c

theorem State.launch_launchQ (s : State) (c : Ctx) (i : DescIx) :
    ((s.launch c i).context c).launchQ = (s.context c).launchQ := by
  cases h : s.launchCheck (s.desc i) with
  | none => exact (State.launch_accepted_fields h c).2.2.2.2.2.2.2
  | some why => rw [State.launch_refused h, State.faultContext_launchQ, State.post_context]

end LaunchFields

/-! ### QUEUE_WALK (R24, R26) -/

theorem ownQueueWalk_badIndex {s : State} {x b : Byte} (h : 8 ≤ x.toNat ∨ 64 ≤ b.toNat) :
    ownQueueWalk ([x] ++ [b]) s = s.refuse .badIndex := by
  unfold ownQueueWalk
  rcases h with h | h
  · rw [show indexOf 8 (argByte ([x] ++ [b]) 0) = none from indexOf_out h]
  · rw [show indexOf 64 (argByte ([x] ++ [b]) 1) = none from indexOf_out h]
    cases indexOf 8 (argByte ([x] ++ [b]) 0) <;> rfl

section QueueWalk

variable {s : State} {c : Ctx} (i : DescIx)

theorem ownQueueWalk_idle (h : (s.context c).state = .idle) :
    ownQueueWalk ([BitVec.ofNat 8 c.val] ++ [BitVec.ofNat 8 i.val]) s
      = { state := (s.launch c i).settle, status := .ok } := by
  simp only [ownQueueWalk, List.cons_append, List.nil_append, indexOf_ctx, indexOf_desc, h, if_true]

theorem ownQueueWalk_room (h : (s.context c).state ≠ .idle) (hlen : (s.context c).launchQ.length < 4) :
    ownQueueWalk ([BitVec.ofNat 8 c.val] ++ [BitVec.ofNat 8 i.val]) s
      = { state := s.setContext c { s.context c with launchQ := (s.context c).launchQ ++ [i] }, status := .ok } := by
  simp only [ownQueueWalk, List.cons_append, List.nil_append, indexOf_ctx, indexOf_desc, h, hlen, if_true, if_false]

theorem ownQueueWalk_full (h : (s.context c).state ≠ .idle) (hlen : (s.context c).launchQ.length = 4) :
    ownQueueWalk ([BitVec.ofNat 8 c.val] ++ [BitVec.ofNat 8 i.val]) s = s.refuse .queueFull := by
  simp [ownQueueWalk, indexOf_ctx, indexOf_desc, h, hlen]

end QueueWalk

/-- Records of one context that differ in the hold and the shortfall only. -/
theorem State.setContext_resettled_of_hold (s : State) (c : Ctx) {x y : Context}
    (h : y = { x with hold := y.hold, shortfall := y.shortfall }) : (s.setContext c x).Resettled (s.setContext c y) := by
  have hx : x.Resettled y := by
    rw [h]
    exact ⟨rfl, List.prefix_refl _, rfl, fun _ hl _ => hl, List.prefix_refl _⟩
  have := (s.setContext c x).setContext_resettled (c := c) (x := y) (by simpa using hx)
  rwa [State.setContext_setContext] at this

/-- Settles O22: the refusals and the append by QUEUE_WALK's branches, the refused launch by the law of a fault. -/
theorem queueWalkWaitsOrIsRefused : Obligations.QueueWalkWaitsOrIsRefused := by
  refine ⟨fun s x b hw h => congrArg _ (State.command_refused hw rfl (ownQueueWalk_badIndex h)),
    fun s c i hw hne => ⟨fun hlen => ?_, fun hlen => ?_⟩, fun s c i why hw hidle hcheck => ?_⟩
  · exact congrArg _ (State.command_done hw rfl (ownQueueWalk_room i hne hlen))
  · exact congrArg _ (State.command_refused hw rfl (ownQueueWalk_full i hne hlen))
  · intro refused
    refine ⟨(s.launch c i).settle, congrArg _ (State.command_done hw rfl (ownQueueWalk_idle i hidle)),
      (State.launch_refused_faultedBy hcheck c).resettled (State.settle_resettled _), fun hs hl => ?_⟩
    have hq := State.faultContext_quiet (s := refused) (c := c) (by simpa [refused] using hs)
      (by simpa [refused] using hl) .launchRefused
    have hlaunch : s.launch c i = refused.faultContext c .launchRefused := State.launch_refused hcheck c
    rw [hlaunch, hq]
    refine State.Resettled.trans (State.setContext_resettled_of_hold _ c ?_) (State.settle_resettled _)
    simp [refused, hs]

/-! ### CLEAR_FAULT (R33) -/

theorem State.launchNext_nil {s : State} {c : Ctx} (h : (s.context c).launchQ = []) : s.launchNext c = s := by
  simp only [State.launchNext, h]

theorem State.launchNext_cons {s : State} {c : Ctx} {i : DescIx} {q : List DescIx}
    (h : (s.context c).launchQ = i :: q) :
    s.launchNext c = (s.setContext c { s.context c with launchQ := q }).launch c i := by
  simp only [State.launchNext, h]

theorem ownClearFault_badIndex {s : State} {b : Byte} (h : 8 ≤ b.toNat) :
    ownClearFault ([] ++ [b]) s = s.refuse .badIndex := by
  unfold ownClearFault
  rw [show indexOf 8 (argByte ([] ++ [b]) 0) = none from indexOf_out h]

section ClearFault

variable {s : State} {c : Ctx}

theorem ownClearFault_state (h : (s.context c).state ≠ .faulted) :
    ownClearFault ([] ++ [BitVec.ofNat 8 c.val]) s = s.refuse .state := by
  simp only [ownClearFault, List.nil_append, indexOf_ctx, h, if_false]

theorem ownClearFault_done (h : (s.context c).state = .faulted) :
    ownClearFault ([] ++ [BitVec.ofNat 8 c.val]) s
      = { state := ((s.setContext c { s.context c with state := .idle }).launchNext c).settle, status := .ok } := by
  simp only [ownClearFault, List.nil_append, indexOf_ctx, h, if_true]

end ClearFault

/-- Settles O26: with a walk queued the rest is a launch's. -/
theorem clearFaultLeavesFaulted : Obligations.ClearFaultLeavesFaulted := by
  refine ⟨fun s b hw h => congrArg _ (State.command_refused hw rfl (ownClearFault_badIndex h)), fun s c hw => ?_⟩
  intro b x
  refine ⟨fun h => congrArg _ (State.command_refused hw rfl (ownClearFault_state h)), fun h hq => ?_,
    fun i q h hq => ?_⟩
  · have hnext : (s.setContext c { x with state := .idle }).launchNext c = s.setContext c { x with state := .idle } :=
      State.launchNext_nil (by simpa using hq)
    refine ⟨_, ?_, congrArg _ (State.command_done hw rfl (ownClearFault_done h))⟩
    exact hnext.symm ▸ State.settle_resettled _
  · have hnext : (s.setContext c { x with state := .idle }).launchNext c
        = (s.setContext c { x with state := .idle, launchQ := q }).launch c i := by
      rw [State.launchNext_cons (i := i) (q := q) (by simpa using hq)]
      simp
    have hown := ownClearFault_done h
    rw [hnext] at hown
    generalize hr : s.setContext c { x with state := .idle, launchQ := q } = r at hown
    have hcmd : exec (.clearFault b) s = _ := congrArg Host.Outcome.next (State.command_done hw rfl hown)
    have hctx : r.context c = { x with state := .idle, launchQ := q } := by rw [← hr]; simp
    have hdesc : r.desc i = s.desc i := by rw [← hr]; rfl
    have hcheck : r.launchCheck (r.desc i) = s.launchCheck (s.desc i) := by
      rw [hdesc]; exact State.launchCheck_congr (by rw [← hr]; rfl) _
    have k := (r.launch c i).settle_resettled
    refine ⟨_, hcmd, rfl, ?_, fun hok => ?_, fun hno => ?_⟩ <;> rw [State.link_context]
    · rw [k.launchQ, r.launch_launchQ, hctx]
    · obtain ⟨h₁, h₂, -, h₄, -, -, h₇, -⟩ := State.launch_accepted_fields (hcheck.trans hok) c
      rw [← k.state] at h₁
      rw [← k.descIndex] at h₂
      rw [← k.serial, hctx] at h₄
      rw [← k.faultReason] at h₇
      exact ⟨h₁, h₂, h₄, h₇⟩
    · obtain ⟨why, hwhy⟩ := Option.ne_none_iff_exists'.mp hno
      have f := (State.launch_refused_faultedBy (hcheck.trans hwhy) c).resettled k
      have hser := f.kept.1
      rw [State.post_context, hctx] at hser
      exact ⟨f.state.1, f.state.2.1, hser⟩

end Sys2Proof.Machine
end

section
/-! Failed line writes, drains and the end of a walk (O27, O23, O24). -/

namespace Sys2Proof.Machine

open Sys2Proof

/-! ### MEMORY_RESPONSE by the origin of the request (R141, R142) -/

/-- A response on an IN_FLIGHT entry frees its tag and goes to the entry's origin. -/
theorem exec_response {s : State} {m : MemTag} {e : TrackEntry} (hlow : s.rstLow = false) (hm : s.track m = some e)
    (hf : e.state = .inFlight) (st : MemStatus) (data : List Byte) :
    exec (.memoryResponse m st data) s = .next ((s.setTrack m none).deliver e st data).settle := by
  show Host.Outcome.next (s.response m st data) = _
  simp [State.response, hlow, hm, hf]

section Deliver

variable {s : State} {e : TrackEntry} {c : Ctx} {n : BitVec 16} {l : Nat} (ho : e.origin = .gather c n l)
  (data : List Byte)
include ho

theorem State.deliver_line_fault :
    s.deliver e .fault data = s.lineFailed c n l (!e.detached) .writeFault .memory := by simp [State.deliver, ho]

theorem State.deliver_line_okay : s.deliver e .okay data = if e.detached then s else s.drainIfDone c := by
  simp [State.deliver, ho]

end Deliver

/-! ### Discarded lines and detached writes (R90, R93, R139) -/

theorem State.discardLines_context (s : State) (c c' : Ctx) : (s.discardLines c).context c'
    = if c = c' then { s.context c with lines := [], issuing := [] } else s.context c' :=
  s.context_setContext c c' _

theorem State.discardLines_fifo (s : State) (c : Ctx) : ∀ g ∈ (s.discardLines c).fifo, ∀ w ∈ g.waitSet, w.1 ≠ c := by
  intro g hg w hw
  obtain ⟨g₀, -, rfl⟩ := List.mem_map.mp hg
  simpa using (List.mem_filter.mp hw).2

/-- After the detachment of its writes a context has none attached (R76, R90). -/
theorem State.attachedWrites_detach (s : State) (c : Ctx) :
    (s.detach (Origin.isWriteOf c) false).attachedWrites c = 0 := by
  have hiq : ((s.detach (Origin.isWriteOf c) false).iq.countP fun e => e.origin.isWriteOf c && !e.detached) = 0 := by
    refine List.countP_eq_zero.mpr fun e he => ?_
    obtain ⟨e₀, -, rfl⟩ := List.mem_map.mp he
    cases h : e₀.origin.isWriteOf c <;> simp [h]
  have htr : (allTags.countP fun t => ((s.detach (Origin.isWriteOf c) false).track t).any fun e =>
      e.origin.isWriteOf c && !e.detached && e.state == .inFlight) = 0 := by
    refine List.countP_eq_zero.mpr fun t _ => ?_
    rw [State.detach_track]
    cases s.track t with
    | none => simp
    | some e => cases h : e.origin.isWriteOf c <;> cases hs : e.state <;> simp [h, hs]
  rw [State.attachedWrites, hiq, htr]

/-- The attached writes stand in the Issue Queue and the tracker. -/
theorem State.attachedWrites_congr {s t : State} (hi : t.iq = s.iq) (ht : ∀ m, t.track m = s.track m) (c : Ctx) :
    t.attachedWrites c = s.attachedWrites c := by simp only [State.attachedWrites, hi, ht]

theorem State.Serves.fifo {s t : State} (h : s.Serves t) : t.fifo = s.fifo := by rw [h.rest]

/-- The record of a context that has entered FAULTED (R34). -/
theorem State.faultContext_context (s : State) (c : Ctx) (why : FaultReason) :
    ((s.faultContext c why).context c).lines = (s.context c).lines
      ∧ ((s.faultContext c why).context c).issuing = (s.context c).issuing := by
  have a := (s.answerAll_serves c .contextFaulted).contexts c
  have b := ((s.faulting c why).breakLinks_serves c why.toReason).contexts c
  rw [s.faultContext_eq, b, State.faulting, State.context_setContext_self]
  constructor
  · show ((s.answerAll c .contextFaulted).context c).lines = _; rw [a]
  · show ((s.answerAll c .contextFaulted).context c).issuing = _; rw [a]

theorem State.faultContext_iq (s : State) (c : Ctx) (why : FaultReason) : (s.faultContext c why).iq = s.iq := by
  rw [s.faultContext_eq, (State.breakLinks_serves _ c _).iq]
  exact (s.answerAll_serves c _).iq

theorem State.faultContext_track (s : State) (c : Ctx) (why : FaultReason) (m : MemTag) :
    (s.faultContext c why).track m = s.track m := by
  rw [s.faultContext_eq, (State.breakLinks_serves _ c _).track]
  exact (s.answerAll_serves c _).track m

theorem State.faultContext_fifo (s : State) (c : Ctx) (why : FaultReason) : (s.faultContext c why).fifo = s.fifo := by
  rw [s.faultContext_eq, (State.breakLinks_serves _ c _).fifo]
  exact (s.answerAll_serves c _).fifo

/-- `settle` issues no line of a context that has none. -/
theorem State.settle_noLines {s : State} {c : Ctx} (hl : (s.context c).lines = []) :
    (s.settle.context c).lines = [] ∧ (s.settle.context c).issuing = (s.context c).issuing := by
  have h : (s.settle.context c).lines = [] :=
    List.length_eq_zero_iff.mp ((s.settle_resettled.contexts c).lines_length.trans (by rw [hl]; rfl))
  refine ⟨h, ?_⟩
  rw [s.settle_settles.order c, h]
  simp

/-- Settles O27: WRITE_FAULT, the lines discarded and the writes detached, then the law of a fault. -/
theorem lineWriteFaultFaultsContext : Obligations.LineWriteFaultFaultsContext := by
  intro s m e c n l data hlow hm hf ho report
  have hexec := exec_response hlow hm hf .fault data
  rw [State.deliver_line_fault ho] at hexec
  refine ⟨fun hd => ?_, fun hd => ?_⟩
  · rw [hd] at hexec
    exact ⟨_, hexec, State.settle_resettled _⟩
  · intro s₁
    rw [hd] at hexec
    have hline : (s.setTrack m none).lineFailed c n l (!false) .writeFault .memory
        = ((s₁.discardLines c).detach (Origin.isWriteOf c) false).faultContext c .writeFault := rfl
    rw [hline] at hexec
    generalize hr : (s₁.discardLines c).detach (Origin.isWriteOf c) false = r at hexec
    have hctx (c' : Ctx) : r.context c' = if c = c' then { s.context c with lines := [], issuing := [] }
        else s.context c' := by
      rw [← hr, State.detach_context, State.discardLines_context]
      simp [s₁]
    have hself : r.context c = { s.context c with lines := [], issuing := [] } := by rw [hctx, if_pos rfl]
    have same : State.SameFaulted c s₁ r := by
      refine ⟨by rw [← hr]; rfl, fun f => by rw [← hr]; rfl, fun f hne => ?_, ?_, ?_, fun u => by rw [← hr]; rfl,
        by rw [← hr]; rfl, by rw [← hr]; rfl⟩
      · rw [hctx, if_neg (Ne.symm hne)]; simp [s₁]
      · rw [hself]; simp [s₁]
      · rw [hself]; simp [s₁]
    have k := (r.faultContext c .writeFault).settle_resettled
    have f := r.faultContext_faultedBy c .writeFault
    obtain ⟨hlines, hissuing⟩ := r.faultContext_context c .writeFault
    rw [hself] at hlines hissuing
    obtain ⟨tlines, tissuing⟩ := State.settle_noLines hlines
    refine ⟨_, hexec, (f.source same).resettled k, fun hs hl => ?_, by rw [k.state, f.state.1],
      by rw [k.faultReason, f.state.2.1], tlines, tissuing.trans hissuing, by rw [k.region, f.state.2.2], ?_, ?_, ?_,
      fun g hg w hw => ?_⟩
    · have hq := State.faultContext_quiet (s := r) (c := c) (by rw [hself]; exact hs)
        (fun f k hk => hl f k (by rw [same.links] at hk; simpa [s₁] using hk)) .writeFault
      rw [k.events, k.slots, hq]
      exact ⟨same.events, by rw [← hr]; simp [s₁, State.detach, State.discardLines]⟩
    · rw [k.endCause, f.kept.2.2.1, hself]
    · rw [k.launchQ, r.faultContext_launchQ, hself]
    · have hat := (s₁.discardLines c).attachedWrites_detach c
      rw [hr] at hat
      rw [State.attachedWrites_congr (s := r) (by rw [k.iq, r.faultContext_iq])
        (fun u => by rw [k.track, r.faultContext_track]), hat]
    · rw [k.fifo, r.faultContext_fifo, ← hr] at hg
      exact s₁.discardLines_fifo c g hg w hw

/-! ### A completed drain (R30) -/

/-- The state in which a completed drain has been reported. -/
def State.reported (s : State) (c : Ctx) (d : Descriptor) : State :=
  if d.doneEvent then s.post (s.walkDoneRecord c) else s

section Drain

variable {s : State} {c : Ctx} {d : Descriptor} (hd : (s.context c).snapshot = some d)

@[simp] theorem State.reported_context (c' : Ctx) : (s.reported c d).context c' = s.context c' := by
  unfold State.reported; split <;> simp

theorem State.reported_keeps : s.Keeps (s.reported c d) := by
  unfold State.reported; split
  · exact s.post_keeps _
  · exact .refl s

@[simp] theorem State.reported_slot (u : HostTag) : (s.reported c d).slot u = s.slot u := by
  unfold State.reported; split <;> simp

@[simp] theorem State.reported_pacing (f : Ctx) : (s.reported c d).pacing f = s.pacing f := by
  unfold State.reported; split <;> simp

@[simp] theorem State.reported_responses : (s.reported c d).responses = s.responses := by
  unfold State.reported; split <;> simp

@[simp] theorem State.reported_timebase : (s.reported c d).timebase = s.timebase := by
  unfold State.reported; split <;> simp

include hd

/-- CHAIN follows an EXHAUSTED walk. -/
theorem State.completeDrain_chain {i : DescIx} (he : (s.context c).endCause = some .exhausted)
    (hc : d.chain = some i) : s.completeDrain c = (s.reported c d).launch c i := by
  simp [State.completeDrain, hd, he, hc, State.reported]

variable (he : (s.context c).endCause ≠ some .exhausted ∨ d.chain = none)
include he

theorem State.noChain : (if (s.context c).endCause = some .exhausted then (s.context c).snapshot.bind Descriptor.chain
    else none) = none := by
  rw [hd]
  rcases he with h | h
  · rw [if_neg h]
  · split <;> simp [h]

/-- Otherwise the Launch Queue's head. -/
theorem State.completeDrain_next {i : DescIx} {q : List DescIx} (hq : (s.context c).launchQ = i :: q) :
    s.completeDrain c
      = ((s.reported c d).setContext c { s.context c with launchQ := q }).launch c i := by
  have hnext : (s.reported c d).launchNext c
      = ((s.reported c d).setContext c { s.context c with launchQ := q }).launch c i := by
    rw [State.launchNext_cons (i := i) (q := q) (by simpa using hq), State.reported_context]
  rw [← hnext]
  unfold State.completeDrain
  dsimp only
  rw [State.noChain hd he]
  simp [hd, hq, State.reported]

/-- Otherwise the context is IDLE. -/
theorem State.completeDrain_idle (hq : (s.context c).launchQ = []) : s.completeDrain c
    = ((s.reported c d).setContext c { s.context c with state := .idle, region := none }).answerAll c .noWalk := by
  unfold State.completeDrain
  dsimp only
  rw [State.noChain hd he]
  have hs₁ : (if ((s.context c).snapshot.map Descriptor.doneEvent).getD false then s.post (s.walkDoneRecord c) else s)
      = s.reported c d := by simp [hd, State.reported]
  rw [hs₁]
  simp [hq]

end Drain

theorem State.answerAll_upholds (s : State) (c : Ctx) (why : HostReason) :
    State.Upholds [.hostFault] s (s.answerAll c why) := (s.answerAll_servesQueue c why).upholds

/-- After its report a drain posts records of launches and answers only. -/
theorem State.completeDrain_upholds {s : State} {c : Ctx} {d : Descriptor} (hd : (s.context c).snapshot = some d) :
    State.Upholds launchKinds (s.reported c d) (s.completeDrain c) := by
  by_cases h : ∃ i, (s.context c).endCause = some .exhausted ∧ d.chain = some i
  · obtain ⟨i, he, hc⟩ := h
    rw [State.completeDrain_chain hd he hc]
    exact State.launch_upholds _ c i
  · have he : (s.context c).endCause ≠ some .exhausted ∨ d.chain = none := by
      cases hc : d.chain with
      | none => exact .inr rfl
      | some i => exact .inl fun he => h ⟨i, he, hc⟩
    cases hq : (s.context c).launchQ with
    | nil =>
      rw [State.completeDrain_idle hd he hq]
      exact (State.setContext_upholds _ c _ _).trans ((State.answerAll_upholds _ c _).mono (by simp [launchKinds]))
    | cons i q =>
      rw [State.completeDrain_next hd he hq]
      exact (State.setContext_upholds _ c _ _).trans (State.launch_upholds _ c i)

/-- What a launch in a context under a link that stays BROKEN makes of its Service Queue (R107, R109). -/
theorem State.launch_lost {s : State} {c : Ctx} {i : DescIx} {l : PacingLink}
    (hcheck : s.launchCheck (s.desc i) = none) (hl : s.pacing c = some l) (hb : l.state = .broken)
    (hne : l.leader ≠ c) (hlead : (s.context l.leader).state = .faulted) (hw : s.Waits (s.context c).service) :
    (s.launch c i).pacing c = some l ∧ ((s.launch c i).context c).service = []
      ∧ (s.launch c i).responses = s.responses ++ (s.context c).service
      ∧ ∀ u ∈ (s.context c).service, ∀ x m, s.slot u = some x → (s.desc i).headCheck x.req = .ok (m + 1) →
        ∃ y, (s.launch c i).slot u = some y ∧ y.answer = some ⟨.fault, x.readData⟩ := by
  have hpac (f : Ctx) : (s.relaunched c i).pacing f = s.pacing f := by
    rw [State.relaunched, State.rearm_eq, State.pacing_setPacing]
    split
    · rename_i e; subst e
      simp [hl, State.context_setContext_of_ne _ (Ne.symm hne), hlead]
    · rfl
  have hslots (u : HostTag) : (s.relaunched c i).slot u = s.slot u := by rw [State.relaunched, State.rearm_eq]; rfl
  have hresp : (s.relaunched c i).responses = s.responses := by rw [State.relaunched, State.rearm_eq]; rfl
  have hctx := s.relaunched_context c i
  rw [State.launch_accepted hcheck]
  have hq : ((s.relaunched c i).context c).service = (s.context c).service := by rw [hctx]; rfl
  obtain ⟨h₁, h₂, h₃⟩ := State.promoteN_lost_queue (c := c) (d := s.desc i) (s.context c).service
    ((s.context c).service.length + 1) (Nat.le_succ _) (s.relaunched c i) hq (by rw [hctx]; rfl) (by rw [hctx]; rfl)
    (by rw [hctx]; rfl) (by simp [State.linkLost, hctx, Context.launched, hpac, hl, hb])
    (hw.congr fun u _ => hslots u)
  have hp : (s.relaunched c i).promote c = State.promoteN c ((s.context c).service.length + 1) (s.relaunched c i) := by
    rw [State.promote, hq]
  rw [hp]
  refine ⟨?_, h₁, by rw [h₂, hresp], fun u hu x m hx hk => h₃ u hu x m (by rw [hslots, hx]) hk⟩
  rw [(State.promoteN_servesQueue _ c _).pacing, hpac, hl]

/-- What a launch of `i` after the end of the last walk of `c` makes of `s`, with the report of that end in `s₀` and
the Launch Queue `q` left. -/
structure State.FollowedBy (s s₀ : State) (c : Ctx) (t : State) (i : DescIx) (q : List DescIx) : Prop where
  launchQ : (t.context c).launchQ = q
  started : s.launchCheck (s.desc i) = none → (t.context c).state = .active ∧ (t.context c).descIndex = some i
    ∧ (t.context c).snapshot = some (s.desc i) ∧ (t.context c).serial = (s.context c).serial + 1
    ∧ (t.context c).progress = 0 ∧ (t.context c).region = some (s.desc i).region
  refused : ∀ why, s.launchCheck (s.desc i) = some why →
    State.FaultedBy (s₀.post (s.refusalRecord c i why)) t c .launchRefused ∧ (t.context c).serial = (s.context c).serial
  lost : ∀ l, s.launchCheck (s.desc i) = none → s.pacing c = some l → l.state = .broken →
    (s.context l.leader).state = .faulted → s.Waits (s.context c).service →
    t.pacing c = some l ∧ (t.context c).service = [] ∧ (s.responses ++ (s.context c).service) <+: t.responses
      ∧ ∀ u z n, u ∈ (s.context c).service → s.slot u = some z → (s.desc i).headCheck z.req = .ok (n + 1) →
        ∃ y, t.slot u = some y ∧ y.answer.map HostAnswer.status = some .fault

/-- The launch from the reported state, whose Launch Queue alone was cut. -/
theorem State.reported_launch_followedBy (s : State) (c : Ctx) (d : Descriptor) (i : DescIx) (q : List DescIx)
    (hstate : (s.context c).state ≠ .faulted) :
    State.FollowedBy s (s.reported c d) c
      ((((s.reported c d).setContext c { s.context c with launchQ := q }).launch c i).settle) i q := by
  generalize hr : (s.reported c d).setContext c { s.context c with launchQ := q } = r
  have k := (r.launch c i).settle_resettled
  have hctx : r.context c = { s.context c with launchQ := q } := by rw [← hr]; simp
  have keeps : s.Keeps r := hr ▸ State.Keeps.trans State.reported_keeps (State.setContext_keeps _ _ _)
  have htime : r.timebase = s.timebase := by rw [keeps]
  have hpac (f : Ctx) : r.pacing f = s.pacing f := by rw [← hr]; simp
  have hslot (u : HostTag) : r.slot u = s.slot u := by rw [← hr]; simp
  have hresp : r.responses = s.responses := by rw [← hr]; simp
  have hdesc : r.desc i = s.desc i := State.desc_congr (by rw [keeps]) i
  have hcheck : r.launchCheck (r.desc i) = s.launchCheck (s.desc i) := by
    rw [hdesc]; exact State.launchCheck_congr (by rw [keeps]) _
  refine ⟨?_, fun hok => ?_, fun why h => ⟨?_, ?_⟩, fun l hok hl hb hlead hw => ?_⟩
  · rw [k.launchQ, r.launch_launchQ, hctx]
  · obtain ⟨h₁, h₂, h₃, h₄, h₅, h₆, -, -⟩ := State.launch_accepted_fields (hcheck.trans hok) c
    rw [hdesc] at h₃ h₆
    rw [hctx] at h₄
    exact ⟨by rw [k.state, h₁], by rw [k.descIndex, h₂], by rw [k.snapshot, h₃], by rw [k.serial, h₄],
      by rw [k.progress, h₅], by rw [k.region, h₆]⟩
  · have hrec : r.refusalRecord c i why = s.refusalRecord c i why := by simp only [State.refusalRecord, htime]
    refine ((State.launch_refused_faultedBy (hcheck.trans h) c).resettled k).source ?_
    rw [hrec, ← hr, State.post_setContext]
    refine ⟨rfl, fun f => rfl, fun f hne => State.context_setContext_of_ne _ (Ne.symm hne) _, ?_, ?_, fun u => rfl, rfl,
      rfl⟩
    · simp
    · simp
  · have f := (State.launch_refused_faultedBy (hcheck.trans h) c).resettled k
    rw [f.kept.1, State.post_context, hctx]
  · have hne : l.leader ≠ c := fun e => hstate (e ▸ hlead)
    have hq : (r.context c).service = (s.context c).service := by rw [hctx]
    have hlead' : (r.context l.leader).state = .faulted := by
      rw [← hr, State.context_setContext_of_ne _ (Ne.symm hne), State.reported_context]; exact hlead
    obtain ⟨h₁, h₂, h₃, h₄⟩ := State.launch_lost (hcheck.trans hok) ((hpac c).trans hl) hb hne hlead'
      (by rw [hq]; exact hw.congr fun u _ => hslot u)
    rw [hq] at h₃ h₄
    refine ⟨by rw [k.pacing, h₁], by rw [k.service, h₂], by rw [k.responses, h₃, hresp], fun u z n hu hz hk => ?_⟩
    obtain ⟨y, hy, hya⟩ := h₄ u hu z n (by rw [hslot, hz]) (by rw [hdesc]; exact hk)
    exact ⟨y, by rw [k.slot, hy], by rw [hya]; rfl⟩

/-- A drained context drains. -/
theorem State.drained_state {s : State} {c : Ctx} (h : s.drained c = true) : (s.context c).state = .draining := by
  simp only [State.drained, Bool.and_eq_true, beq_iff_eq] at h
  exact h.1.1

/-- Answers are the same seen from a state whose slots, responses, events and Timebase are the same. -/
theorem State.AnswersFault.source {s s' t : State} {q : List HostTag} {why : HostReason} (h : s'.AnswersFault t q why)
    (ht : s'.timebase = s.timebase) (hs : ∀ u, s'.slot u = s.slot u) (hr : s'.responses = s.responses)
    (he : s'.events = s.events) : s.AnswersFault t q why where
  responses := by rw [← hr]; exact h.responses
  answered := fun u hu x hx => h.answered u hu x (by rw [hs, hx])
  others := fun u hu => by rw [h.others u hu, hs]
  events := by simpa only [hs, he, State.hostFaultRecord_congr ht] using h.events
  timebase := h.timebase.trans ht

/-- Settles O23: the launch that follows a drain is judged from the reported state, whose tables are those of the
drained one. -/
theorem completedDrainLaunchesNextWalk : Obligations.CompletedDrainLaunchesNextWalk := by
  refine ⟨fun s m e c n l data hlow hm hf ho => ?_, fun s c d hdrained hd => ?_⟩
  · intro s₁
    have hexec := exec_response hlow hm hf .okay data
    rw [State.deliver_line_okay ho] at hexec
    refine ⟨fun hdet hdr => ?_, fun hno => ?_⟩
    · rw [hexec, hdet]
      show Host.Outcome.next (s₁.drainIfDone c).settle = Host.Outcome.next _
      rw [if_pos hdr, State.drainIfDone, if_pos hdr]
    · have hstay : (if e.detached then s₁ else s₁.drainIfDone c) = s₁ := by
        rcases hno with h | h
        · rw [h, if_pos rfl]
        · rw [State.drainIfDone, h]; simp
      exact ⟨_, hexec, hstay.symm ▸ State.settle_resettled _⟩
  · intro x done s₀ launchedFrom
    have hexec : exec (.drainComplete c) s = .next (s.completeDrain c).settle := by
      show Host.Outcome.next _ = _
      rw [if_pos hdrained]
    have hdrain : (s.context c).state ≠ .faulted := by rw [State.drained_state hdrained]; decide
    have up := (State.completeDrain_upholds hd).trans ((s.completeDrain c).settle_resettled.upholds _)
    have launches (i : DescIx) (q : List DescIx) : launchedFrom
        ((((s.reported c d).setContext c { s.context c with launchQ := q }).launch c i).settle) i q := by
      have h := s.reported_launch_followedBy c d i q hdrain
      refine ⟨h.launchQ, h.started, fun hno => ?_, fun why hwhy => (h.refused why hwhy).1, h.lost⟩
      obtain ⟨why, hwhy⟩ := Option.ne_none_iff_exists'.mp hno
      obtain ⟨f, hser⟩ := h.refused why hwhy
      exact ⟨f.state.1, f.state.2.1, hser, f.service, f.state.2.2⟩
    refine ⟨_, hexec, fun hev hroom => ?_, fun hev e he hkind => ?_, fun i he hc => ?_,
      fun hno => ⟨fun i q hq => ?_, fun hq => ?_⟩⟩
    · have := up.events
      rw [State.reported, if_pos hev, State.post_room hroom] at this
      exact this
    · have := up.kinds e he
      rw [State.reported, if_neg (by simp [hev])] at this
      rcases this with h | h
      · exact h
      · rw [hkind] at h; simp [launchKinds] at h
    · rw [State.completeDrain_chain hd he hc]
      have hsame : (s.reported c d).setContext c { s.context c with launchQ := (s.context c).launchQ }
          = s.reported c d := by
        conv_rhs => rw [← State.setContext_context (s.reported c d) c, State.reported_context]
      rw [← hsame]
      exact launches i _
    · rw [State.completeDrain_next hd hno hq]
      exact launches i q
    · rw [State.completeDrain_idle hd hno hq]
      generalize hr : (s.reported c d).setContext c { s.context c with state := .idle, region := none } = r
      have hctx : r.context c = { s.context c with state := .idle, region := none } := by rw [← hr]; simp
      have a := r.answerAll_servesQueue c .noWalk
      have k := (r.answerAll c .noWalk).settle_resettled
      refine ⟨by rw [k.state, a.serves.state, hctx], by rw [k.region, a.serves.region, hctx], ?_,
        by rw [k.serial, a.serves.serial, hctx], by rw [k.progress, a.serves.progress, hctx], fun hw => ?_⟩
      · rw [k.service, State.answerAll_service]
      · have hans := State.answerAll_answersFault (s := r) (c := c)
          (by rw [hctx]; exact State.Waits.congr hw fun u _ => by rw [← hr]; simp) .noWalk
        rw [hctx] at hans
        refine State.AnswersFault.answeredFault (s := s₀) (t := r.answerAll c .noWalk)
          (State.AnswersFault.source hans ?_ (fun u => ?_) ?_ ?_) (k.upholds [])
        all_goals rw [← hr]; rfl

end Sys2Proof.Machine
end

section
/-! END_WALK (O24). -/

namespace Sys2Proof.Machine

open Sys2Proof

/-! ### What an answered queue and a discarded read-ahead leave (R36, R71) -/

/-- Answering a whole queue rewrites the record of its context only. -/
theorem State.answerAll_context (s : State) (c : Ctx) (why : HostReason) (c' : Ctx) : (s.answerAll c why).context c'
    = if c = c' then { s.context c with service := [], headChecked := false, hold := .none, shortfall := 0 }
      else s.context c' := by
  have folds (q : List HostTag) (r : State) (g : Ctx) :
      (q.foldl (fun s t => s.answer t (some why)) r).context g = r.context g := by
    induction q generalizing r with
    | nil => rfl
    | cons u q ih => rw [List.foldl_cons, ih, State.answer_context]
  unfold State.answerAll
  dsimp only
  rw [State.context_setContext]
  simp only [folds]

theorem State.discardReadAhead_context (s : State) (c c' : Ctx) : (s.discardReadAhead c).context c'
    = if c = c' then { s.context c with entries := [] } else s.context c' := by
  rw [State.discardReadAhead, State.detach_context, State.context_setContext]

/-- A read request is no line write. -/
theorem Origin.isWriteOf_of_isReadOf {o : Origin} {c : Ctx} (h : o.isReadOf c = true) (g : Ctx) :
    o.isWriteOf g = false := by
  cases o with
  | gather => cases h
  | _ => rfl

/-- Detaching reads leaves the attached writes. -/
theorem State.attachedWrites_discardReadAhead (s : State) (c g : Ctx) :
    (s.discardReadAhead c).attachedWrites g = s.attachedWrites g := by
  have hiq : ((s.discardReadAhead c).iq.countP fun e => e.origin.isWriteOf g && !e.detached)
      = s.iq.countP fun e => e.origin.isWriteOf g && !e.detached := by
    show (s.iq.map _).countP _ = _
    rw [List.countP_map]
    refine List.countP_congr fun e _ => ?_
    cases h : e.origin.isReadOf c with
    | false => simp [h]
    | true => simp [h, Origin.isWriteOf_of_isReadOf h g]
  have htr (u : MemTag) : ((s.discardReadAhead c).track u).any (fun e =>
        e.origin.isWriteOf g && !e.detached && e.state == .inFlight)
      = (s.track u).any fun e => e.origin.isWriteOf g && !e.detached && e.state == .inFlight := by
    rw [State.discardReadAhead, State.detach_track]
    show Option.any _ ((s.track u).map _) = _
    cases s.track u with
    | none => rfl
    | some e =>
      cases h : e.origin.isReadOf c with
      | false => simp [h]
      | true => simp [h, Origin.isWriteOf_of_isReadOf h g]
  simp only [State.attachedWrites, hiq, htr]

/-! ### The end of a walk (R28, R29) -/

/-- The record of a context whose walk has just ended (R28). -/
def Context.ended (x : Context) (why : EndCause) : Context :=
  { x.issueAll with
    state := .draining, endCause := some why, hold := if x.service.isEmpty then .none else .next,
    headChecked := false, shortfall := 0 }

section Ended

variable (x : Context) (why : EndCause)

@[simp] theorem Context.ended_state : (x.ended why).state = .draining := rfl

@[simp] theorem Context.ended_endCause : (x.ended why).endCause = some why := rfl

@[simp] theorem Context.ended_snapshot : (x.ended why).snapshot = x.snapshot := rfl

@[simp] theorem Context.ended_region : (x.ended why).region = x.region := rfl

@[simp] theorem Context.ended_serial : (x.ended why).serial = x.serial := rfl

@[simp] theorem Context.ended_take : (x.ended why).take = x.take := rfl

@[simp] theorem Context.ended_progress : (x.ended why).progress = x.progress := rfl

@[simp] theorem Context.ended_launchQ : (x.ended why).launchQ = x.launchQ := rfl

@[simp] theorem Context.ended_service : (x.ended why).service = x.service := rfl

@[simp] theorem Context.ended_lines : (x.ended why).lines = x.lines.map GatherLine.issue := rfl

end Ended

section EndWalk

variable {s : State} {c : Ctx} {d : Descriptor} (hd : (s.context c).snapshot = some d)
include hd

/-- A write walk with lines or attached writes enters DRAINING. -/
theorem State.endWalk_write (hw : d.direction = .write) (hbusy : (s.context c).lines ≠ [] ∨ s.attachedWrites c ≠ 0)
    (why : EndCause) : s.endWalk c why = s.setContext c ((s.context c).ended why) := by
  have hopen : (s.setContext c ((s.context c).ended why)).drained c = false := by
    have hat : (s.setContext c ((s.context c).ended why)).attachedWrites c = s.attachedWrites c := rfl
    rcases hbusy with h | h
    · simp [State.drained, h]
    · simp [State.drained, hat, h]
  have hread : ¬ (s.context c).snapshot.map Descriptor.direction = some .read := by simp [hd, hw]
  unfold State.endWalk
  dsimp only
  rw [if_neg hread]
  show State.drainIfDone (s.setContext c ((s.context c).ended why)) c = _
  rw [State.drainIfDone, hopen]
  simp

/-- A read walk without lines and attached writes is drained at once. -/
theorem State.endWalk_read (hr : d.direction = .read) (hl : (s.context c).lines = []) (ha : s.attachedWrites c = 0)
    (why : EndCause) : s.endWalk c why
      = ((s.setContext c ((s.context c).ended why)).discardReadAhead c).completeDrain c := by
  have hdone : ((s.setContext c ((s.context c).ended why)).discardReadAhead c).drained c = true := by
    have hat : (s.setContext c ((s.context c).ended why)).attachedWrites c = s.attachedWrites c := rfl
    rw [← hat] at ha
    simp [State.drained, State.attachedWrites_discardReadAhead, ha, State.discardReadAhead_context, hl]
  have hread : (s.context c).snapshot.map Descriptor.direction = some .read := by simp [hd, hr]
  unfold State.endWalk
  dsimp only
  rw [if_pos hread]
  show State.drainIfDone ((s.setContext c ((s.context c).ended why)).discardReadAhead c) c = _
  rw [State.drainIfDone, if_pos hdone]

end EndWalk

/-- `settle` leaves a DRAINING context whose lines are all ISSUING as it is, but for the issuing order. -/
theorem State.settle_ended {s : State} {c : Ctx} {x : Context} {why : EndCause} (h : s.context c = x.ended why) :
    (s.settle.context c).hold = (if x.service.isEmpty then .none else .next)
      ∧ (s.settle.context c).lines = x.lines.map GatherLine.issue := by
  have hhold : (s.settle.context c).hold = if x.service.isEmpty then .none else .next := by
    rw [State.settle_hold_draining (by rw [h]; rfl), h, Context.ended_service]
  refine ⟨hhold, ?_⟩
  rw [s.settle_settles.lines c (by rw [hhold]; split <;> decide), h]
  rw [Context.ended_lines, List.map_map]
  refine List.map_congr_left fun l _ => ?_
  simp only [Function.comp_apply, GatherLine.issue_issue, ite_self]

/-! ### END_WALK (R31) -/

theorem ownEndWalk_badIndex {s : State} {b : Byte} (h : 8 ≤ b.toNat) :
    ownEndWalk ([] ++ [b]) s = s.refuse .badIndex := by
  unfold ownEndWalk
  rw [show indexOf 8 (argByte ([] ++ [b]) 0) = none from indexOf_out h]

section Command

variable {s : State} {c : Ctx}

theorem ownEndWalk_state (h : (s.context c).state ≠ .active) :
    ownEndWalk ([] ++ [BitVec.ofNat 8 c.val]) s = s.refuse .state := by
  simp only [ownEndWalk, List.nil_append, indexOf_ctx, h, if_false]

/-- The state in which a partly served head of `c` has been answered. -/
def State.headEnded (s : State) (c : Ctx) : State :=
  if s.partlyServed c then s.finishHead c (some .ended) else s

theorem ownEndWalk_done (h : (s.context c).state = .active) : ownEndWalk ([] ++ [BitVec.ofNat 8 c.val]) s
    = { state := ((s.headEnded c).endWalk c .ended).settle, status := .ok } := by
  simp only [ownEndWalk, List.nil_append, indexOf_ctx, h, if_true, State.headEnded]

theorem State.headEnded_serves (s : State) (c : Ctx) : s.Serves (s.headEnded c) := by
  unfold State.headEnded
  split
  · exact s.finishHead_serves c _
  · exact .refl s

/-- A head that has taken nothing stays. -/
theorem State.headEnded_waiting (h : ∀ u x, s.head c = some (u, x) → x.taken = 0) : s.headEnded c = s := by
  have hno : s.partlyServed c = false := by
    unfold State.partlyServed
    split
    · rename_i u x hh
      simp [h u x hh]
    · rfl
  rw [State.headEnded, hno]
  rfl

/-- A head that has taken some of its elements, and not all, is answered. -/
theorem State.headEnded_partly {u : HostTag} {x : HostSlot} {n : Nat} (hh : s.head c = some (u, x))
    (hck : (s.context c).headChecked = true) (hn : x.count = some n) (h₀ : 0 < x.taken) (h₁ : x.taken < n) :
    s.headEnded c = s.finishHead c (some .ended) := by
  have hdem : s.demand c = n - x.taken := by simp [State.demand, hck, hh, hn]
  have hyes : s.partlyServed c = true := by
    simp only [State.partlyServed, hh, hdem, h₀, decide_true, Bool.true_and, decide_eq_true_eq]
    omega
  rw [State.headEnded, if_pos hyes]

end Command

/-- END_WALK of a write walk with lines or attached writes (R28, R31). -/
theorem State.endWrite {s : State} {c : Ctx} {d : Descriptor} (hd : (s.context c).snapshot = some d)
    (hdir : d.direction = .write) (hbusy : (s.context c).lines ≠ [] ∨ s.attachedWrites c ≠ 0) :
    ∃ r, (s.headEnded c).endWalk c .ended = r ∧ r.context c = ((s.headEnded c).context c).ended .ended
      ∧ r.slots = (s.headEnded c).slots ∧ r.responses = (s.headEnded c).responses
      ∧ r.events = (s.headEnded c).events := by
  have h := s.headEnded_serves c
  rw [State.endWalk_write (by rw [h.snapshot]; exact hd) hdir
    (by rw [h.lines, State.attachedWrites_congr h.iq h.track]; exact hbusy)]
  exact ⟨_, rfl, by simp, rfl, rfl, rfl⟩

/-- END_WALK of a read walk that is drained at once and that no walk follows (R28 to R31). -/
theorem State.endRead {s : State} {c : Ctx} {d : Descriptor} (hd : (s.context c).snapshot = some d)
    (hdir : d.direction = .read) (hq : (s.context c).launchQ = []) (hl : (s.context c).lines = [])
    (hat : s.attachedWrites c = 0) : ∃ r, (s.headEnded c).endWalk c .ended = r
      ∧ r.context c = { ((s.headEnded c).context c).ended .ended with
        state := .idle, region := none, service := [], headChecked := false, hold := .none, shortfall := 0,
        entries := [] } := by
  have h := s.headEnded_serves c
  rw [State.endWalk_read (by rw [h.snapshot]; exact hd) hdir (by rw [h.lines]; exact hl)
    (by rw [State.attachedWrites_congr h.iq h.track]; exact hat)]
  generalize hr : ((s.headEnded c).setContext c (((s.headEnded c).context c).ended .ended)).discardReadAhead c = r
  have hctx : r.context c = { ((s.headEnded c).context c).ended .ended with entries := [] } := by
    rw [← hr, State.discardReadAhead_context, if_pos rfl, State.context_setContext_self]
  rw [State.completeDrain_idle (d := d) (by rw [hctx, Context.ended_snapshot, h.snapshot, hd])
    (.inl (by rw [hctx, Context.ended_endCause]; decide)) (by rw [hctx, Context.ended_launchQ, h.launchQ, hq])]
  exact ⟨_, rfl, by rw [State.answerAll_context, if_pos rfl, State.context_setContext_self, hctx]⟩

/-- Settles O24: the refusals by END_WALK's branches; a write walk's record is the ended one, a read walk's that of a
drain without a following walk. -/
theorem endWalkStopsActiveWalk : Obligations.EndWalkStopsActiveWalk := by
  refine ⟨fun s b hw h => congrArg _ (State.command_refused hw rfl (ownEndWalk_badIndex h)), fun s c hw => ?_⟩
  intro b x
  have hexec {r : State} (ha : x.state = .active) (hr : (s.headEnded c).endWalk c .ended = r) :
      exec (.endWalk b) s = .next { r.settle with link := s.link.answered b .ok [] } :=
    congrArg Host.Outcome.next (State.command_done hw rfl ((ownEndWalk_done ha).trans (by rw [hr])))
  have h₁ := s.headEnded_serves c
  refine ⟨fun h => congrArg _ (State.command_refused hw rfl (ownEndWalk_state h)),
    fun d ha hd hdir hbusy => ?_, fun d ha hd hdir hq hl hat => ?_⟩
  · obtain ⟨r, hr, hctx, hslots, hresp, hev⟩ := State.endWrite hd hdir hbusy
    obtain ⟨hhold, hlines⟩ := State.settle_ended hctx
    have k := r.settle_resettled
    have stays (h : s.headEnded c = s) : r.settle.slots = s.slots ∧ r.settle.responses = s.responses
        ∧ r.settle.events = s.events := by
      rw [k.slots, k.responses, k.events, hslots, hresp, hev, h]
      exact ⟨rfl, rfl, rfl⟩
    refine ⟨_, hexec ha hr, rfl, ?_, ?_, ?_, ?_, ?_, ?_, ?_, ?_, fun hs => ?_, fun u rest y hs hy h₀ => ?_,
      fun u rest y n hs hy ho hck hn h₀ hlt => ?_⟩
    · rw [State.link_context, k.state, hctx, Context.ended_state]
    · rw [State.link_context, k.endCause, hctx, Context.ended_endCause]
    · rw [State.link_context, k.take, hctx, Context.ended_take, h₁.take]
    · rw [State.link_context, k.progress, hctx, Context.ended_progress, h₁.progress]
    · rw [State.link_context, k.serial, hctx, Context.ended_serial, h₁.serial]
    · rw [State.link_context, k.region, hctx, Context.ended_region, h₁.region]
    · rw [State.link_context, k.launchQ, hctx, Context.ended_launchQ, h₁.launchQ]
    · rw [State.link_context, hlines, h₁.lines]
    · have hstay := State.headEnded_waiting (s := s) (c := c) fun u y hh => by
        obtain ⟨rest, hc⟩ := State.service_of_head hh
        exact absurd (hs.symm.trans hc) (by simp)
      dsimp only
      exact stays hstay
    · have hstay := State.headEnded_waiting (s := s) (c := c) fun v z hh => by
        obtain rfl := (Prod.mk.inj (Option.some.inj (hh.symm.trans (State.head_of_service hs hy)))).2
        exact h₀
      refine ⟨?_, ?_, by dsimp only; exact stays hstay⟩
      · rw [State.link_context, k.service, hctx, Context.ended_service, hstay]
      · rw [State.link_context, hhold, hstay, show (s.context c).service = u :: rest from hs]; rfl
    · have hpart := State.headEnded_partly (State.head_of_service hs hy) hck hn h₀ hlt
      obtain ⟨g₁, g₂, g₃⟩ := State.finishHead_open hs hy ho (some .ended)
      refine ⟨?_, ?_, ?_⟩
      · rw [State.link_context, k.service, hctx, Context.ended_service, hpart, g₃]
      · dsimp only
        rw [k.responses, hresp, hpart, g₁]
      · rw [State.link_slot, k.slot, State.slot, hslots, hpart]; exact g₂
  · obtain ⟨r, hr, hctx⟩ := State.endRead hd hdir hq hl hat
    have k := r.settle_resettled
    refine ⟨_, hexec ha hr, rfl, ?_, ?_, ?_, ?_, ?_, ?_, ?_⟩
    · rw [State.link_context, k.state, hctx]
    · rw [State.link_context, k.endCause, hctx, Context.ended_endCause]
    · rw [State.link_context, r.settle_entries, State.fillContext_other (.inl (by simp [hctx])), hctx]
    · rw [State.link_context, k.region, hctx]
    · rw [State.link_context, k.service, hctx]
    · rw [State.link_context, k.serial, hctx, Context.ended_serial, h₁.serial]
    · rw [State.link_context, k.progress, hctx, Context.ended_progress, h₁.progress]

end Sys2Proof.Machine
end

section
/-! ABORT_WALK (O25). -/

namespace Sys2Proof.Machine

open Sys2Proof

/-! ### A context cleared (R32, R71, R93, R139) -/

/-- The record of a context without transactions, entries and lines. -/
def Context.cleared (x : Context) : Context :=
  { x with
    service := [], headChecked := false, hold := .none, shortfall := 0, entries := [], lines := [], issuing := [] }

/-- An origin in a walk of `c`. -/
def Origin.isOf (c : Ctx) (o : Origin) : Bool := o.isReadOf c || o.isWriteOf c

/-- The state in which `c` has lost its lines and read-ahead, its requests are detached and its queue is answered. -/
def State.cleared (s : State) (c : Ctx) : State :=
  (((s.discardLines c).detach (Origin.isWriteOf c) true).discardReadAhead c).answerAll c .aborted

theorem State.abort_eq (s : State) (c : Ctx) (breaks purge : Bool) : s.abort c breaks purge
    = (if breaks then (s.cleared c).breakLinks c .aborted else s.cleared c).setContext c
      { (if breaks then (s.cleared c).breakLinks c .aborted else s.cleared c).context c with
        state := .idle, region := none,
        launchQ := if purge then []
          else ((if breaks then (s.cleared c).breakLinks c .aborted else s.cleared c).context c).launchQ } := rfl

/-- From `s` to `t` the context `c` was cleared, and nothing else happened. -/
structure State.Clears (c : Ctx) (s t : State) : Prop where
  self : t.context c = (s.context c).cleared
  others : ∀ g, g ≠ c → t.context g = s.context g
  iq : t.iq = s.iq.map fun e => if e.origin.isOf c then { e with detached := true } else e
  track : ∀ m, t.track m = (s.track m).map fun e => if e.origin.isOf c then { e with detached := true } else e
  fifo : t.fifo = s.fifo.map fun e => { e with waitSet := e.waitSet.filter fun w => w.1 != c }
  pacing : ∀ f, t.pacing f = s.pacing f
  slots : ∀ u, u ∉ (s.context c).service → t.slot u = s.slot u
  keeps : s.Keeps t
  upholds : State.Upholds [.hostFault] s t
  answered : s.Waits (s.context c).service → s.AnswersFault t (s.context c).service .aborted

theorem State.cleared_clears (s : State) (c : Ctx) : State.Clears c s (s.cleared c) := by
  generalize hr : ((s.discardLines c).detach (Origin.isWriteOf c) true).discardReadAhead c = r
  have hcl : s.cleared c = r.answerAll c .aborted := by rw [← hr]; rfl
  have hctx (g : Ctx) : r.context g
      = if c = g then { s.context c with entries := [], lines := [], issuing := [] } else s.context g := by
    rw [← hr, State.discardReadAhead_context]
    simp only [State.detach_context, State.discardLines_context, if_true]
    split <;> rfl
  have hiq : r.iq = s.iq.map fun e => if e.origin.isOf c then { e with detached := true } else e := by
    rw [← hr]
    show (s.iq.map _).map _ = _
    rw [List.map_map]
    refine List.map_congr_left fun e _ => ?_
    cases hw : e.origin.isWriteOf c <;> cases hd : e.origin.isReadOf c <;> simp [Origin.isOf, hw, hd]
  have htrack (m : MemTag) : r.track m
      = (s.track m).map fun e => if e.origin.isOf c then { e with detached := true } else e := by
    rw [← hr, State.discardReadAhead, State.detach_track]
    show (((s.discardLines c).detach (Origin.isWriteOf c) true).track m).map _ = _
    rw [State.detach_track, Option.map_map]
    refine congrArg (fun f => (s.track m).map f) (funext fun e => ?_)
    cases hw : e.origin.isWriteOf c <;> cases hd : e.origin.isReadOf c <;> simp [Origin.isOf, hw, hd]
  have hslots : r.slots = s.slots := by rw [← hr]; rfl
  have hslot (u : HostTag) : r.slot u = s.slot u := by rw [State.slot, hslots]; rfl
  have hresp : r.responses = s.responses := by rw [← hr]; rfl
  have hev : r.events = s.events := by rw [← hr]; rfl
  have hkeeps : s.Keeps r := by
    rw [← hr]
    exact (s.discardLines_keeps c).trans ((State.detach_keeps _ _ _).trans (State.discardReadAhead_keeps _ c))
  have hself : (r.context c).service = (s.context c).service := by rw [hctx, if_pos rfl]
  have a := r.answerAll_servesQueue c .aborted
  rw [hcl]
  refine ⟨?_, fun g hg => ?_, a.serves.iq.trans hiq, fun m => (a.serves.track m).trans (htrack m), ?_, fun f => ?_,
    fun u hu => ?_, hkeeps.trans a.serves.keeps, ?_, fun hw => ?_⟩
  · rw [State.answerAll_context, if_pos rfl, hctx, if_pos rfl]; rfl
  · rw [a.others g hg, hctx, if_neg (Ne.symm hg)]
  · rw [a.serves.fifo, ← hr]; rfl
  · rw [a.pacing, ← hr]; rfl
  · rw [a.slots u (by rw [hself]; exact hu), hslot]
  · exact (State.Upholds.of_eq hslots hresp hev _).trans a.upholds
  · have h := State.answerAll_answersFault (s := r) (c := c) (by rw [hself]; exact hw.congr fun u _ => hslot u) .aborted
    rw [hself] at h
    exact h.source (by rw [hkeeps]) hslot hresp hev

/-- A context without transactions is beyond the reach of a break. -/
theorem State.breakLinks_context_of_empty {s : State} {c : Ctx} (h : (s.context c).service = []) (g : Ctx)
    (why : Reason) : (s.breakLinks g why).context c = s.context c := by
  have one (r : State) (hr : (r.context c).service = []) (f : Ctx) :
      (State.breakLink g why r f).context c = r.context c := by
    by_cases e : c = f
    · subst e
      rcases r.breakLink_cases g why c with e | ⟨l, -, -, -, e⟩
      · rw [e]
      · rw [e, State.promote_of_empty (by simpa using hr), State.linkCut_context]
    · exact ((r.breakLink_breaksAmong g why f).others c (by simpa using e)).1
  have folds (fs : List Ctx) (r : State) (hr : (r.context c).service = []) :
      (fs.foldl (State.breakLink g why) r).context c = r.context c := by
    induction fs generalizing r with
    | nil => rfl
    | cons f fs ih =>
      have hone := one r hr f
      rw [List.foldl_cons, ih _ (by rw [hone, hr]), hone]
  exact folds allCtx s h

/-! ### An aborted context (R32, R106) -/

/-- The record of an aborted context with the Launch Queue `q` left. -/
def Context.aborted (x : Context) (q : List DescIx) : Context :=
  { x.cleared with state := .idle, region := none, launchQ := q }

/-- From `s` to `t` the context `c` was aborted, with the Launch Queue `q` left. -/
structure State.Aborted (s : State) (c : Ctx) (t : State) (q : List DescIx) : Prop where
  self : t.context c = (s.context c).aborted q
  others : ∀ g, g ≠ c → (t.context g).state = (s.context g).state ∧ (t.context g).progress = (s.context g).progress
    ∧ (t.context g).take = (s.context g).take
  iq : t.iq = s.iq.map fun e => if e.origin.isOf c then { e with detached := true } else e
  track : ∀ m, t.track m = (s.track m).map fun e => if e.origin.isOf c then { e with detached := true } else e
  answered : s.Waits (s.context c).service → s.AnsweredFault t (s.context c).service .aborted
  lost : s.LinksLost t c .aborted
  broken : ∀ f l, t.pacing f = some l → l.leader = c → l.state = .broken
  fifo : ∀ e ∈ t.fifo, ∀ w ∈ e.waitSet, w.1 ≠ c
  responses : s.responses <+: t.responses
  events : s.events <+: t.events
  keeps : s.Keeps t

theorem State.abort_aborted (s : State) (c : Ctx) (purge : Bool) :
    s.Aborted c (s.abort c true purge) (if purge then [] else (s.context c).launchQ) := by
  have h := s.cleared_clears c
  have b := (s.cleared c).breakLinks_serves c .aborted
  have up := State.breakLinks_upholds (s.cleared c) c .aborted
  have hself : ((s.cleared c).breakLinks c .aborted).context c = (s.context c).cleared := by
    rw [State.breakLinks_context_of_empty (by rw [h.self]; rfl), h.self]
  have hlost : s.LinksLost ((s.cleared c).breakLinks c .aborted) c .aborted := by
    refine ((s.cleared c).breakLinks_linksLost c .aborted).source
      ⟨by rw [h.keeps], h.pacing, h.others, by rw [h.self]; rfl, by rw [h.self]; exact List.nil_subset _, h.slots⟩
  have keeps := s.abort_keeps c true purge
  have hbroken (f : Ctx) (l : PacingLink) := (s.cleared c).breakLinks_broken (f := f) (l := l) c .aborted
  rw [State.abort_eq] at keeps ⊢
  simp only [if_true] at keeps ⊢
  rw [hself] at keeps ⊢
  generalize (s.cleared c).breakLinks c .aborted = r at b up hself hlost keeps hbroken
  have up' : State.Upholds [.hostFault, .leaderLost] s (r.setContext c { (s.context c).cleared with
      state := .idle, region := none, launchQ := if purge then [] else (s.context c).cleared.launchQ }) :=
    ((h.upholds.mono (by simp)).trans up).trans (State.setContext_upholds _ c _ _)
  refine ⟨?_, fun g hg => ?_, ?_, fun m => ?_, fun hw => ?_, ?_, fun f l hl hc => ?_, fun e he w hw => ?_,
    up'.responses, up'.events, keeps⟩
  · rw [State.context_setContext_self]; rfl
  · rw [State.context_setContext_of_ne _ (Ne.symm hg), b.state, b.progress, b.take, h.others g hg]
    exact ⟨rfl, rfl, rfl⟩
  · rw [← h.iq, ← b.iq]; rfl
  · rw [← h.track, ← b.track]; rfl
  · exact (h.answered hw).answeredFault (up.trans (State.setContext_upholds _ c _ _))
  · refine hlost.target (fun _ => rfl) (fun _ => rfl) rfl rfl fun f hf => ?_
    rw [State.context_setContext_of_ne _ (Ne.symm hf)]
    exact ⟨rfl, rfl, rfl, rfl⟩
  · exact hbroken f l hl hc
  · have he : e ∈ r.fifo := he
    rw [b.fifo, h.fifo] at he
    obtain ⟨e₀, -, rfl⟩ := List.mem_map.mp he
    simpa using (List.mem_filter.mp hw).2

/-- `settle` leaves an IDLE context without entries, lines and hold as it is. -/
theorem State.settle_context_idle {s : State} {c : Ctx} (hs : (s.context c).state = .idle)
    (hh : (s.context c).hold = .none) (hl : (s.context c).lines = []) : s.settle.context c = s.context c := by
  have hflush : s.fill.flushHazards.context c = s.context c := by
    rw [State.flushHazards_context, s.fill_context, State.fillContext_other (.inl (by simp [hs])), hl, List.map_nil, ← hl]
  rw [s.settle_context, hflush, State.decideHold, hs]
  generalize s.context c = x at hh hl
  simp only [Context.withHold, Context.orderIssuing, hl, List.filter_nil, List.map_nil, List.append_nil]
  cases x
  simp_all

section Aborted

variable {s t : State} {c : Ctx} {q : List DescIx} (h : s.Aborted c t q)
include h

theorem State.Aborted.settled : s.Aborted c t.settle q := by
  have k := t.settle_resettled
  have hidle := State.settle_context_idle (s := t) (c := c) (by rw [h.self]; rfl) (by rw [h.self]; rfl)
    (by rw [h.self]; rfl)
  refine ⟨hidle.trans h.self, fun g hg => ?_, by rw [k.iq, h.iq], fun m => by rw [k.track, h.track], fun hw => ?_,
    h.lost.resettled k, fun f l hl => h.broken f l (by rw [← k.pacing, hl]), by rw [k.fifo]; exact h.fifo,
    by rw [k.responses]; exact h.responses, by rw [k.events]; exact h.events, h.keeps.trans k.keeps⟩
  · rw [k.state, k.progress, k.take]; exact h.others g hg
  · obtain ⟨h₁, h₂, h₃⟩ := h.answered hw
    exact ⟨by rw [k.responses]; exact h₁, fun u hu x hx => by rw [k.slot]; exact h₂ u hu x hx,
      fun hroom => by rw [k.events]; exact h₃ hroom⟩

/-- The Launch Queue's head may be taken. -/
theorem State.Aborted.cutQueue (p : List DescIx) :
    s.Aborted c (t.setContext c { t.context c with launchQ := p }) p := by
  refine ⟨by rw [State.context_setContext_self, h.self]; rfl, fun g hg => ?_, h.iq, h.track, h.answered, ?_, h.broken,
    h.fifo, h.responses, h.events, h.keeps.trans (State.setContext_keeps _ _ _)⟩
  · rw [State.context_setContext_of_ne _ (Ne.symm hg)]; exact h.others g hg
  · refine h.lost.target (fun _ => rfl) (fun _ => rfl) rfl rfl fun f hf => ?_
    rw [State.context_setContext_of_ne _ (Ne.symm hf)]
    exact ⟨rfl, rfl, rfl, rfl⟩

/-- A link that `c` does not lead stays as it is. -/
theorem State.Aborted.spared (f : Ctx) (l : PacingLink) (hl : s.pacing f = some l) (hc : l.leader ≠ c) :
    t.pacing f = some l := by
  rw [h.lost.others f fun m hm => by obtain rfl := Option.some.inj (hl.symm.trans hm); exact hc, hl]

/-- A launch that is accepted in an aborted context finds nothing waiting (R23, R109). -/
theorem State.Aborted.launch_accepted {i : DescIx} (hcheck : t.launchCheck (t.desc i) = none) :
    t.launch c i = (t.setPacing c ((t.pacing c).map fun l =>
      if l.state = .broken ∧ (t.context l.leader).state ≠ .faulted then { l with state := .armed } else l)).setContext c
        ((t.context c).launched i (t.desc i)) := by
  have hlinks : ((t.setContext c ((t.context c).launched i (t.desc i))).pacing c).map (fun l =>
        if l.state = .broken ∧ ((t.setContext c ((t.context c).launched i (t.desc i))).context l.leader).state ≠ .faulted
        then { l with state := .armed } else l)
      = (t.pacing c).map fun l =>
        if l.state = .broken ∧ (t.context l.leader).state ≠ .faulted then { l with state := .armed } else l := by
    refine congrArg (fun f => (t.pacing c).map f) (funext fun l => ?_)
    by_cases e : c = l.leader
    · have h₁ : ((t.context c).launched i (t.desc i)).state = .active := rfl
      have h₂ : (t.context c).state = .idle := by rw [h.self]; rfl
      rw [← e, State.context_setContext_self, h₁, h₂]
      simp
    · rw [State.context_setContext_of_ne _ e]
  rw [State.launch_accepted hcheck, State.promote_of_empty (by rw [t.relaunched_context, h.self]; rfl),
    State.relaunched, State.rearm_eq, hlinks]
  rfl

/-- A launch that is refused in an aborted context leaves its record and the fault (R24). -/
theorem State.Aborted.launch_refused {i : DescIx} {why : RefusalReason}
    (hcheck : t.launchCheck (t.desc i) = some why) : t.launch c i
      = (t.post (t.refusalRecord c i why)).setContext c { t.context c with
        state := .faulted, faultReason := some .launchRefused } := by
  rw [State.launch_refused hcheck, State.faultContext_quiet (by rw [State.post_context, h.self]; rfl)
    (fun f l hl => h.broken f l (by rwa [State.post_pacing] at hl)), State.post_context, h.self]
  rfl

end Aborted

/-! ### ABORT_WALK (R32) -/

theorem ownAbortWalk_badIndex {s : State} {x b : Byte} (h : 8 ≤ x.toNat) :
    ownAbortWalk ([x] ++ [b]) s = s.refuse .badIndex := by
  unfold ownAbortWalk
  rw [show indexOf 8 (argByte ([x] ++ [b]) 0) = none from indexOf_out h]

section Command

variable {s : State} {c : Ctx} {b : Byte}

theorem ownAbortWalk_badValue (h : 1 < b.toNat) :
    ownAbortWalk ([BitVec.ofNat 8 c.val] ++ [b]) s = s.refuse .badValue := by
  have hb : ¬ argByte [BitVec.ofNat 8 c.val, b] 1 ≤ 1 := Nat.not_le.mpr h
  simp only [ownAbortWalk, List.cons_append, List.nil_append, indexOf_ctx, hb, if_false]

theorem ownAbortWalk_done (h : b.toNat ≤ 1) : ownAbortWalk ([BitVec.ofNat 8 c.val] ++ [b]) s
    = { state := ((s.abort c true (b.toNat == 1)).launchNext c).settle, status := .ok,
        bytes := [BitVec.ofNat 8 (s.context c).lines.length] } := by
  have hb : argByte [BitVec.ofNat 8 c.val, b] 1 ≤ 1 := h
  simp only [ownAbortWalk, List.cons_append, List.nil_append, indexOf_ctx, hb, if_true, encodeLE_one]
  rfl

end Command

/-- Settles O25: what an abort makes of the context survives `settle` and the cut of the Launch Queue; the launch that
follows finds an empty Service Queue and no ARMED link to break. -/
theorem abortWalkClearsContext : Obligations.AbortWalkClearsContext := by
  refine ⟨fun s x b hw h => congrArg _ (State.command_refused hw rfl (ownAbortWalk_badIndex h)), fun s c hw => ?_⟩
  intro x reply aborted
  have meets {t : State} {q : List DescIx} (h : s.Aborted c t q) : aborted t q :=
    ⟨h.self, h.others, h.iq, h.track, h.answered, h.lost, h.broken, h.spared, h.fifo, h.responses, h.events,
      by rw [h.keeps], by rw [h.keeps], by rw [h.keeps], by rw [h.keeps], by rw [h.keeps]⟩
  have linked {t : State} {q : List DescIx} {f : Frame} (h : s.Aborted c t q) : aborted { t with link := f } q :=
    ⟨h.self, h.others, h.iq, h.track, h.answered,
      h.lost.target (fun _ => rfl) (fun _ => rfl) rfl rfl fun _ _ => ⟨rfl, rfl, rfl, rfl⟩, h.broken, h.spared, h.fifo,
      h.responses, h.events, by rw [h.keeps], by rw [h.keeps], by rw [h.keeps], by rw [h.keeps], by rw [h.keeps]⟩
  refine ⟨fun b hb => congrArg _ (State.command_refused hw rfl (ownAbortWalk_badValue hb)), fun b hb => ?_,
    fun i q hq => ?_⟩
  · have hqueue : (if b.toNat == 1 then [] else (s.context c).launchQ) = [] := by
      rcases hb with rfl | ⟨rfl, hq⟩
      · rfl
      · exact hq
    have h := s.abort_aborted c (b.toNat == 1)
    rw [hqueue] at h
    have hnext := State.launchNext_nil (s := s.abort c true (b.toNat == 1)) (c := c) (by rw [h.self]; rfl)
    have hle : b.toNat ≤ 1 := by rcases hb with rfl | ⟨rfl, -⟩ <;> decide
    have hown := ownAbortWalk_done (s := s) (c := c) hle
    rw [hnext] at hown
    exact ⟨_, congrArg Host.Outcome.next (State.command_done hw rfl hown), rfl, linked h.settled⟩
  · intro d
    have h := s.abort_aborted c false
    have hq' : ((s.abort c true false).context c).launchQ = i :: q := by rw [h.self]; exact hq
    have hown := ownAbortWalk_done (s := s) (c := c) (b := 0) (by decide)
    have hnext := State.launchNext_cons hq'
    have hu := h.cutQueue q
    generalize (s.abort c true false).setContext c { (s.abort c true false).context c with launchQ := q } = u at hnext hu
    have hdesc : u.desc i = s.desc i := State.desc_congr (by rw [hu.keeps]) i
    have hcheck : u.launchCheck (u.desc i) = s.launchCheck (s.desc i) := by
      rw [hdesc]; exact State.launchCheck_congr (by rw [hu.keeps]) _
    have htime : u.timebase = s.timebase := by rw [hu.keeps]
    refine ⟨u, (u.launch c i).settle, meets hu, ?_, fun hok => ?_, fun why hno => ?_⟩
    · refine congrArg Host.Outcome.next (State.command_done hw rfl (hown.trans ?_))
      rw [← hnext]
      rfl
    · intro start link
      rw [hu.launch_accepted (hcheck.trans hok), hdesc, hu.self]
      exact State.settle_settles _
    · rw [hu.launch_refused (hcheck.trans hno), State.refusalRecord, htime]
      exact State.settle_resettled _

end Sys2Proof.Machine
end

section
/-! SOFT_RESET (O48). -/

namespace Sys2Proof.Machine

open Sys2Proof

/-- An origin in a walk of one of `cs`. -/
def Origin.isAmong (cs : List Ctx) (o : Origin) : Bool := cs.any fun c => o.isOf c

/-- From `s` to `t` the contexts `cs` were aborted with purge and without a link break, in this order, and nothing else
happened. -/
structure State.AbortedAmong (cs : List Ctx) (s t : State) : Prop where
  contexts : ∀ g, t.context g = if g ∈ cs then (s.context g).aborted [] else s.context g
  iq : t.iq = s.iq.map fun e => if e.origin.isAmong cs then { e with detached := true } else e
  track : ∀ m, t.track m = (s.track m).map fun e => if e.origin.isAmong cs then { e with detached := true } else e
  fifo : t.fifo = s.fifo.map fun e => { e with waitSet := e.waitSet.filter fun w => !decide (w.1 ∈ cs) }
  pacing : ∀ f, t.pacing f = s.pacing f
  slots : ∀ u, (∀ c ∈ cs, u ∉ (s.context c).service) → t.slot u = s.slot u
  keeps : s.Keeps t
  upholds : State.Upholds [.hostFault] s t
  answered : s.Waits (cs.flatMap fun c => (s.context c).service) →
    s.AnswersFault t (cs.flatMap fun c => (s.context c).service) .aborted

theorem State.abort_purge_eq (s : State) (c : Ctx) :
    s.abort c false true = (s.cleared c).setContext c ((s.context c).aborted []) := by
  rw [State.abort_eq]
  simp only [Bool.false_eq_true, if_false, if_true, (s.cleared_clears c).self]
  rfl

/-- One abort of SOFT_RESET. -/
theorem State.abort_abortedAmong (s : State) (c : Ctx) : State.AbortedAmong [c] s (s.abort c false true) := by
  have h := s.cleared_clears c
  have keeps := s.abort_keeps c false true
  rw [State.abort_purge_eq] at keeps ⊢
  generalize s.cleared c = r at h keeps
  refine ⟨fun g => ?_, ?_, fun m => ?_, ?_, h.pacing, fun u hu => h.slots u (hu c (List.mem_singleton_self c)), keeps,
    h.upholds.trans (State.setContext_upholds _ c _ _), fun hw => ?_⟩
  · by_cases e : g = c
    · subst e; simp
    · rw [State.context_setContext_of_ne _ (Ne.symm e), h.others g e, if_neg (by simpa using e)]
  · simpa [Origin.isAmong] using h.iq
  · simpa [Origin.isAmong] using h.track m
  · refine h.fifo.trans ?_
    simp only [List.mem_singleton, bne, beq_eq_decide]
  · simp only [List.flatMap_cons, List.flatMap_nil, List.append_nil] at hw ⊢
    have a := h.answered hw
    exact ⟨a.responses, a.answered, a.others, a.events, a.timebase⟩

/-- One abort after others. -/
theorem State.AbortedAmong.cons {c : Ctx} {cs : List Ctx} {s t r : State} (h : State.AbortedAmong [c] s t)
    (k : State.AbortedAmong cs t r) (hc : c ∉ cs) : State.AbortedAmong (c :: cs) s r := by
  have same (g : Ctx) (hg : g ∈ cs) : t.context g = s.context g := by
    rw [h.contexts, if_neg]
    rintro hm
    exact hc (List.mem_singleton.mp hm ▸ hg)
  have hflat : (cs.flatMap fun g => (t.context g).service) = cs.flatMap fun g => (s.context g).service := by
    simp only [List.flatMap]
    rw [List.map_congr_left fun g hg => by rw [same g hg]]
  refine ⟨fun g => ?_, ?_, fun m => ?_, ?_, fun f => (k.pacing f).trans (h.pacing f), fun u hu => ?_,
    h.keeps.trans k.keeps, h.upholds.trans k.upholds, fun hw => ?_⟩
  · rw [k.contexts]
    by_cases hg : g ∈ cs
    · rw [if_pos hg, if_pos (List.mem_cons_of_mem _ hg), same g hg]
    · rw [if_neg hg, h.contexts]
      simp [hg]
  · rw [k.iq, h.iq, List.map_map]
    refine List.map_congr_left fun e _ => ?_
    cases h₁ : e.origin.isOf c <;> cases h₂ : e.origin.isAmong cs <;> simp_all [Origin.isAmong]
  · rw [k.track, h.track, Option.map_map]
    refine congrArg (fun f => (s.track m).map f) (funext fun e => ?_)
    cases h₁ : e.origin.isOf c <;> cases h₂ : e.origin.isAmong cs <;> simp_all [Origin.isAmong]
  · rw [k.fifo, h.fifo, List.map_map]
    refine List.map_congr_left fun e _ => ?_
    simp only [Function.comp_apply, List.filter_filter]
    refine congrArg (fun l => { e with waitSet := l }) (List.filter_congr fun w _ => ?_)
    simp [Bool.and_comm]
  · rw [k.slots u fun g hg => by rw [same g hg]; exact hu g (List.mem_cons_of_mem _ hg),
      h.slots u fun g hg => by rw [List.mem_singleton.mp hg]; exact hu c (List.mem_cons_self ..)]
  · rw [List.flatMap_cons] at hw ⊢
    obtain ⟨hn₁, hn₂, hdis⟩ := List.nodup_append.mp hw.1
    have first := h.answered (by simpa using ⟨hn₁, fun u hu => hw.2 u (List.mem_append_left _ hu)⟩)
    simp only [List.flatMap_cons, List.flatMap_nil, List.append_nil] at first
    have rest := k.answered (by
      rw [hflat]
      exact ⟨hn₂, fun u hu => by
        rw [first.others u fun hm => hdis u hm u hu rfl]
        exact hw.2 u (List.mem_append_right _ hu)⟩)
    rw [hflat] at rest
    exact first.append rest fun u hu hm => hdis u hu u hm rfl

theorem State.abortAll_abortedAmong (s : State) : State.AbortedAmong allCtx s s.abortAll := by
  have folds (cs : List Ctx) (hn : cs.Nodup) (r : State) :
      State.AbortedAmong cs r (cs.foldl (fun s c => s.abort c false true) r) := by
    induction cs generalizing r with
    | nil =>
      exact ⟨fun g => by simp, by simp [Origin.isAmong], fun m => by simp [Origin.isAmong], by simp, fun _ => rfl,
        fun _ _ => rfl, .refl r, .refl r _, fun _ => .nil r _⟩
    | cons c cs ih =>
      obtain ⟨hc, hn⟩ := List.nodup_cons.mp hn
      exact (r.abort_abortedAmong c).cons (ih hn _) hc
  exact folds allCtx allCtx_nodup s

/-! ### SOFT_RESET (R165) -/

/-- Every origin but a host transaction belongs to a walk. -/
theorem Origin.isAmong_allCtx (o : Origin) : o.isAmong allCtx = match o with
    | .host _ => false
    | _ => true := by
  cases o with
  | host t => simp [Origin.isAmong, Origin.isOf, Origin.isReadOf, Origin.isWriteOf]
  | readAhead c n e =>
    exact List.any_eq_true.mpr ⟨c, mem_allCtx c, by simp [Origin.isOf, Origin.isReadOf]⟩
  | gather c n l =>
    exact List.any_eq_true.mpr ⟨c, mem_allCtx c, by simp [Origin.isOf, Origin.isWriteOf]⟩

theorem State.armAll_pacing (s : State) (f : Ctx) :
    s.armAll.pacing f = (s.pacing f).map fun l => { l with state := .armed } := by
  simp [State.armAll, State.pacing, Vector.get_eq_getElem]

section ArmAll

variable (s : State)

@[simp] theorem State.armAll_context (c : Ctx) : s.armAll.context c = s.context c := rfl

@[simp] theorem State.armAll_slot (u : HostTag) : s.armAll.slot u = s.slot u := rfl

@[simp] theorem State.armAll_iq : s.armAll.iq = s.iq := rfl

@[simp] theorem State.armAll_track (m : MemTag) : s.armAll.track m = s.track m := rfl

@[simp] theorem State.armAll_fifo : s.armAll.fifo = s.fifo := rfl

end ArmAll

theorem State.armAll_upholds (s : State) (ks : List EventKind) : State.Upholds ks s s.armAll :=
  ⟨List.prefix_refl _, List.prefix_refl _, fun _ y _ hy ha => ⟨y, hy, ha⟩, fun _ he => .inl he⟩

theorem State.armAll_keeps (s : State) : s.Keeps s.armAll := rfl

/-- A record that was posted without loss is the last. -/
theorem State.post_last {s : State} {e : EventRecord} (h : (s.post e).loss = 0) : (s.post e).events.getLast? = some e := by
  by_cases hroom : s.events.length < 32
  · rw [State.post_room hroom]; simp
  · rw [State.post_full hroom] at h
    have h : min 65535 (s.loss + 1) = 0 := h
    omega

/-- The SOFT_RESET_DONE record (R149). -/
def State.resetRecord (s : State) : EventRecord := { s.record .softResetDone with value := some s.lineCount }

/-- What SOFT_RESET leaves before the waits are decided afresh. -/
def State.softly (s : State) : State := s.abortAll.armAll.post s.resetRecord

/-- Settles O48: the eight aborts by induction over the contexts; arming and the last record touch nothing else. -/
theorem softResetAbortsEveryContext : Obligations.SoftResetAbortsEveryContext := by
  intro s hphase n
  have h := s.abortAll_abortedAmong
  have hexec : exec .softReset s
      = .next { s.softly.settle with link := s.link.answered 0x7E .ok [BitVec.ofNat 8 n] } := by
    refine congrArg Host.Outcome.next ((State.command_code hphase rfl ownSoftReset).trans ?_)
    rw [← encodeLE_one]
    rfl
  have up : State.Upholds [.hostFault, .softResetDone] s.abortAll s.softly.settle :=
    ((s.abortAll.armAll_upholds _).trans (State.post_upholds _ _ (by simp [State.resetRecord, State.record]))).trans
      (s.softly.settle_resettled.upholds _)
  have all := (h.upholds.mono (by simp)).trans up
  have keeps : s.Keeps s.softly.settle :=
    (h.keeps.trans s.abortAll.armAll_keeps).trans
      ((State.post_keeps _ _).trans s.softly.settle_keeps)
  have k := s.softly.settle_resettled
  have hctx (c : Ctx) : s.softly.context c = (s.context c).aborted [] := by
    rw [State.softly, State.post_context, State.armAll_context, h.contexts, if_pos (mem_allCtx c)]
  have hcontexts (c : Ctx) : s.softly.settle.context c = (s.context c).aborted [] := by
    rw [State.settle_context_idle (by rw [hctx]; rfl) (by rw [hctx]; rfl) (by rw [hctx]; rfl), hctx]
  have hpacing (f : Ctx) : s.softly.settle.pacing f = (s.pacing f).map fun l => { l with state := .armed } := by
    rw [k.pacing, State.softly, State.post_pacing, State.armAll_pacing, h.pacing]
  have hiq : s.softly.settle.iq = s.abortAll.iq := by
    rw [k.iq, State.softly, (State.post_serves _ _).iq, State.armAll_iq]
  have htrack (m : MemTag) : s.softly.settle.track m = s.abortAll.track m := by
    rw [k.track, State.softly, (State.post_serves _ _).track, State.armAll_track]
  have hfifo : s.softly.settle.fifo = s.abortAll.fifo := by
    rw [k.fifo, State.softly, (State.post_serves _ _).fifo, State.armAll_fifo]
  have hslot (u : HostTag) : s.softly.settle.slot u = s.abortAll.slot u := by
    rw [k.slot, State.softly, State.post_slot, State.armAll_slot]
  have hlast (hloss : s.softly.settle.loss = 0) : s.softly.settle.events.getLast? = some s.resetRecord := by
    rw [k.events]
    refine State.post_last ?_
    rw [k.rest] at hloss
    dsimp only [State.softly] at hloss
    exact hloss
  have hans (hw : s.Waits (allCtx.flatMap fun c => (s.context c).service)) := (h.answered hw).answeredFault up
  generalize s.softly.settle = t at hexec all keeps hcontexts hpacing hiq htrack hfifo hslot hlast hans
  refine ⟨_, hexec, rfl, hcontexts, hpacing, ?_, fun m => ?_, ?_, hans, fun e he hkind => ?_,
    all.responses, all.events, hlast, by rw [keeps], by rw [keeps], by rw [keeps], by rw [keeps], by rw [keeps],
    by rw [keeps], by rw [keeps], by rw [keeps], fun u x hx _ hno => ?_⟩
  · dsimp only
    rw [hiq, h.iq]
    refine List.map_congr_left fun e _ => ?_
    rw [Origin.isAmong_allCtx]
    cases e.origin <;> rfl
  · rw [State.link_track, htrack, h.track]
    refine congrArg (fun f => (s.track m).map f) (funext fun e => ?_)
    rw [Origin.isAmong_allCtx]
    cases e.origin <;> rfl
  · dsimp only
    rw [hfifo, h.fifo]
    simp [mem_allCtx]
  · refine (all.kinds e he).resolve_right fun hm => ?_
    rw [hkind] at hm
    simp at hm
  · rw [State.link_slot, hslot, h.slots u fun c _ => hno c, hx]

end Sys2Proof.Machine
end

section
/-! Width conversion, byte order and lanes of an element (O18). -/

namespace Sys2Proof.Machine

open Sys2Proof

/-! ### Byte order (R176) -/

/-- Each byte of a little-endian number. -/
theorem encodeLE_getD {n j : Nat} (v : Nat) (h : j < n) : ((encodeLE n v).getD j 0).toNat = v / 256 ^ j % 256 := by
  induction n generalizing v j with
  | zero => omega
  | succ n ih =>
    cases j with
    | zero => simp [encodeLE]
    | succ j =>
      rw [encodeLE, List.getD_cons_succ, ih _ (by omega), Nat.div_div_eq_div_mul, Nat.pow_succ']

/-- `n` bytes spell the number modulo 256^n. -/
theorem decodeLE_encodeLE (n v : Nat) : decodeLE (encodeLE n v) = v % 256 ^ n := by
  induction n generalizing v with
  | zero => simp [encodeLE, decodeLE, Nat.mod_one]
  | succ n ih =>
    rw [encodeLE, decodeLE, ih, BitVec.toNat_ofNat, Nat.mod_mod, Nat.pow_succ', Nat.mod_mul]

/-- Bytes spell a number that they hold. -/
theorem decodeLE_lt (bs : List Byte) : decodeLE bs < 256 ^ bs.length := by
  induction bs with
  | nil => simp [decodeLE]
  | cons b bs ih =>
    have := b.isLt
    rw [decodeLE, List.length_cons, Nat.pow_succ']
    omega

/-! ### Two's complement (R46) -/

/-- The values of `w` bytes stand in 8w bits, half of them with the sign bit set. -/
theorem two_pow_bits {w : Nat} (h : 1 ≤ w) : 2 ^ (8 * w) = 2 * 2 ^ (8 * w - 1) := by
  rw [← Nat.pow_succ', Nat.succ_eq_add_one, Nat.sub_add_cancel (by omega)]

theorem pow_256_eq (w : Nat) : 256 ^ w = 2 ^ (8 * w) := by rw [Nat.pow_mul]

/-- A code always fits its width. -/
theorem unsignedOf_lt (w : Nat) (v : Int) : unsignedOf w v < 256 ^ w := by
  have h : (0 : Int) < 2 ^ (8 * w) := by positivity
  have hlt := Int.emod_lt_of_pos v h
  have hnn := Int.emod_nonneg v h.ne'
  rw [pow_256_eq, unsignedOf]
  zify
  rwa [Int.toNat_of_nonneg hnn]

/-- Coding a value in range and reading it back keeps it. -/
theorem signedOf_unsignedOf {w : Nat} (hw : 1 ≤ w) {v : Int} (hlo : -(2 ^ (8 * w - 1) : Int) ≤ v)
    (hhi : v < 2 ^ (8 * w - 1)) : signedOf w (unsignedOf w v) = v := by
  have hpow : (2 : Int) ^ (8 * w) = 2 * 2 ^ (8 * w - 1) := by exact_mod_cast two_pow_bits hw
  have hcast : ((2 ^ (8 * w - 1) : Nat) : Int) = 2 ^ (8 * w - 1) := by push_cast; rfl
  simp only [signedOf, unsignedOf, hpow]
  generalize (2 : Int) ^ (8 * w - 1) = h at *
  generalize 2 ^ (8 * w - 1) = n at *
  by_cases hv : 0 ≤ v
  · rw [Int.emod_eq_of_lt hv (by omega), if_pos (by omega)]
    omega
  · have hmod : v % (2 * h) = v + 2 * h := by
      rw [← Int.add_emod_right, Int.emod_eq_of_lt (by omega) (by omega)]
    rw [hmod, if_neg (by omega)]
    omega

/-- The values that a width reads as. -/
theorem signedOf_range {w v : Nat} (hw : 1 ≤ w) (hv : v < 256 ^ w) :
    -(2 ^ (8 * w - 1) : Int) ≤ signedOf w v ∧ signedOf w v < 2 ^ (8 * w - 1) := by
  have hpow : (2 : Int) ^ (8 * w) = 2 * 2 ^ (8 * w - 1) := by exact_mod_cast two_pow_bits hw
  have hcast : ((2 ^ (8 * w - 1) : Nat) : Int) = 2 ^ (8 * w - 1) := by push_cast; rfl
  rw [pow_256_eq, two_pow_bits hw] at hv
  simp only [signedOf, hpow]
  generalize (2 : Int) ^ (8 * w - 1) = h at *
  generalize 2 ^ (8 * w - 1) = n at *
  split <;> omega

/-- A wider value range takes in the range of a narrower one. -/
theorem signRange_mono {src dst : Nat} (h : src ≤ dst) : (2 : Int) ^ (8 * src - 1) ≤ 2 ^ (8 * dst - 1) :=
  pow_le_pow_right₀ (by norm_num) (by omega)

/-! ### The width conversion (R48) -/

section Convert

variable {src dst v : Nat}

/-- The conversion always fits the target width. -/
theorem convertWidth_lt (hv : v < 256 ^ src) (m : Conversion) : convertWidth m src dst v < 256 ^ dst := by
  have hpos : 0 < 256 ^ dst := by positivity
  unfold convertWidth
  split
  · rename_i hle
    have wide : v < 256 ^ dst := hv.trans_le (Nat.pow_le_pow_right (by norm_num) hle)
    cases m with
    | zero | satUnsigned => exact wide
    | sign | satSigned => exact unsignedOf_lt dst _
  · cases m with
    | zero | sign => rw [← pow_256_eq]; exact Nat.mod_lt _ hpos
    | satUnsigned => dsimp only; rw [← pow_256_eq]; omega
    | satSigned => exact unsignedOf_lt dst _

/-- Widening a signed value keeps it. -/
theorem signedOf_widened (hsrc : 1 ≤ src) (hv : v < 256 ^ src) (hle : src ≤ dst) :
    signedOf dst (unsignedOf dst (signedOf src v)) = signedOf src v := by
  obtain ⟨hlo, hhi⟩ := signedOf_range hsrc hv
  have hmono := signRange_mono hle
  exact signedOf_unsignedOf (by omega) (by omega) (by omega)

/-- Widening keeps the value in each mode. -/
theorem convertWidth_widen (hsrc : 1 ≤ src) (hv : v < 256 ^ src) (hle : src ≤ dst) :
    convertWidth .zero src dst v = v ∧ convertWidth .satUnsigned src dst v = v
      ∧ signedOf dst (convertWidth .sign src dst v) = signedOf src v
      ∧ signedOf dst (convertWidth .satSigned src dst v) = signedOf src v := by
  simp only [convertWidth, if_pos hle, true_and, and_self]
  exact signedOf_widened hsrc hv hle

/-- Clamping brings a value into the range of the target width. -/
theorem signedOf_clamped (hdst : 1 ≤ dst) (x : Int) :
    signedOf dst (unsignedOf dst (max (-2 ^ (8 * dst - 1)) (min x (2 ^ (8 * dst - 1) - 1))))
      = max (-2 ^ (8 * dst - 1)) (min x (2 ^ (8 * dst - 1) - 1)) := by
  have hpos : (0 : Int) < 2 ^ (8 * dst - 1) := by positivity
  exact signedOf_unsignedOf hdst (by omega) (by omega)

/-- Narrowing keeps the low bytes or clamps. -/
theorem convertWidth_narrow (hdst : 1 ≤ dst) (hlt : dst < src) :
    convertWidth .zero src dst v = v % 256 ^ dst ∧ convertWidth .sign src dst v = v % 256 ^ dst
      ∧ convertWidth .satUnsigned src dst v = min v (256 ^ dst - 1)
      ∧ signedOf dst (convertWidth .satSigned src dst v)
        = max (-(2 ^ (8 * dst - 1) : Int)) (min (signedOf src v) (2 ^ (8 * dst - 1) - 1)) := by
  simp only [convertWidth, if_neg (Nat.not_le_of_lt hlt), pow_256_eq, true_and]
  exact signedOf_clamped hdst _

end Convert

/-! ### Lanes (R47, R51) -/

variable {d : Descriptor}

/-- A lane is kept when it is below MEM_WIDTH and in the mask. -/
theorem Descriptor.mem_keptLanes {j : Fin 4} :
    j ∈ d.keptLanes ↔ j.val < d.memWidth ∧ d.laneMask.getLsbD j.val = true := by
  have all : j ∈ ([0, 1, 2, 3] : List (Fin 4)) := by revert j; decide
  simp only [Descriptor.keptLanes, Descriptor.lanes, List.mem_filter, all, true_and, decide_eq_true_eq]

/-- The bytes of a write element (R50, R51). -/
theorem Descriptor.mem_memoryBytes (hw : d.memWidth ≤ 4) {addr : Nat} {host : List Byte} {m : Nat × Byte} :
    m ∈ d.memoryBytes addr host ↔ ∃ j < d.memWidth, d.laneMask.getLsbD j = true ∧ m.1 = addr + j ∧
      m.2.toNat = convertWidth d.conversion d.hostSize d.memWidth (decodeLE host) / 256 ^ j % 256 := by
  have byte (j : Nat) (hj : j < d.memWidth) := encodeLE_getD
    (convertWidth d.conversion d.hostSize d.memWidth (decodeLE host)) hj
  simp only [Descriptor.memoryBytes, List.mem_map, Descriptor.mem_keptLanes]
  constructor
  · rintro ⟨j, ⟨hj, hmask⟩, rfl⟩
    exact ⟨j.val, hj, hmask, rfl, byte j.val hj⟩
  · rintro ⟨j, hj, hmask, haddr, hbyte⟩
    refine ⟨⟨j, by omega⟩, ⟨hj, hmask⟩, Prod.ext haddr.symm ?_⟩
    exact BitVec.eq_of_toNat_eq ((byte j hj).trans hbyte.symm)

/-- A read element depends on the bytes of the mask's lanes only (R47). -/
theorem Descriptor.hostBytes_congr {data data' : Vector Byte 4}
    (h : ∀ j : Fin 4, d.laneMask.getLsbD j.val = true → data.get j = data'.get j) :
    d.hostBytes data = d.hostBytes data' := by
  have masked : d.maskedValue data = d.maskedValue data' := by
    refine congrArg decodeLE (List.map_congr_left fun j _ => ?_)
    split
    · exact h j ‹_›
    · rfl
  rw [Descriptor.hostBytes, Descriptor.hostBytes, masked]

/-- The lanes are the first MEM_WIDTH of the four. -/
theorem Descriptor.lanes_eq_take (hw : d.memWidth ≤ 4) :
    d.lanes = ([0, 1, 2, 3] : List (Fin 4)).take d.memWidth := by
  unfold Descriptor.lanes
  generalize d.memWidth = w at hw
  interval_cases w <;> rfl

/-- The byte that lane `j` counts as: a masked-out lane counts as 0 (R47). -/
def Descriptor.maskedByte (d : Descriptor) (data : Vector Byte 4) (j : Fin 4) : Byte :=
  if d.laneMask.getLsbD j.val then data.get j else 0

theorem Descriptor.maskedValue_eq_decodeLE (hw : d.memWidth ≤ 4) (data : Vector Byte 4) : d.maskedValue data
    = decodeLE ((([0, 1, 2, 3] : List (Fin 4)).take d.memWidth).map (d.maskedByte data)) := by
  rw [← Descriptor.lanes_eq_take hw]
  rfl

/-- The masked value fits MEM_WIDTH bytes. -/
theorem Descriptor.maskedValue_lt (hw : d.memWidth ≤ 4) (data : Vector Byte 4) :
    d.maskedValue data < 256 ^ d.memWidth := by
  have h := decodeLE_lt ((([0, 1, 2, 3] : List (Fin 4)).take d.memWidth).map (d.maskedByte data))
  rwa [List.length_map, List.length_take_of_le (by simpa using hw), ← Descriptor.maskedValue_eq_decodeLE hw] at h

/-- The masked value counts the byte of each lane of the mask at its place (R47). -/
theorem Descriptor.maskedValue_eq_sum (hw : d.memWidth ≤ 4) (data : Vector Byte 4) : d.maskedValue data
    = (([0, 1, 2, 3] : List (Fin 4)).map fun j =>
        if j.val < d.memWidth ∧ d.laneMask.getLsbD j.val = true then 256 ^ j.val * (data.get j).toNat else 0).sum := by
  have place (j : Fin 4) : (if d.laneMask.getLsbD j.val = true then 256 ^ j.val * (data.get j).toNat else 0)
      = 256 ^ j.val * (d.maskedByte data j).toNat := by unfold Descriptor.maskedByte; split <;> simp
  rw [Descriptor.maskedValue_eq_decodeLE hw]
  simp only [ite_and, place]
  generalize d.memWidth = w at hw
  interval_cases w <;> simp [decodeLE] <;> omega

/-- Settles O18: the laws of the width conversion, of byte order and of the lanes. -/
theorem elementConversionAndLanes : Obligations.ElementConversionAndLanes := by
  refine ⟨fun src dst v hsrc _ hdst _ hv => ⟨convertWidth_lt hv, convertWidth_widen hsrc hv, convertWidth_narrow hdst⟩,
    fun d addr host m hw => d.mem_memoryBytes hw, fun d data data' h => d.hostBytes_congr h,
    fun d data _ hw _ _ => ⟨encodeLE_length _ _, ?_⟩, fun n v => ⟨decodeLE_encodeLE n v, encodeLE_length n v⟩⟩
  rw [Descriptor.hostBytes, decodeLE_encodeLE, Nat.mod_eq_of_lt (convertWidth_lt (d.maskedValue_lt hw data) _),
    d.maskedValue_eq_sum hw]

end Sys2Proof.Machine
end

section
/-! Write elements merged into gather lines, and the stale marks that a merge leaves (O14). -/

namespace Sys2Proof

open Sys2Proof.Machine

/-! ### The slot of the next element (R123) -/

/-- A selected number stands behind the selected numbers below it. -/
theorem getElem?_filter_range {p : Nat → Bool} {n i : Nat} (hi : i < n) (hp : p i = true) :
    ((List.range n).filter p)[(List.range i).countP p]? = some i := by
  induction n with
  | zero => omega
  | succ n ih =>
    rw [List.range_succ, List.filter_append]
    rcases Nat.lt_succ_iff_lt_or_eq.mp hi with hlt | rfl
    · have hsome := ih hlt
      rw [List.getElem?_append_left (List.getElem?_eq_some_iff.mp hsome).1, hsome]
    · simp [List.countP_eq_length_filter, hp]

variable {r : HostRequest} {wh : Nat}

/-- The next element of a write whose slots are strobed whole or not at all. -/
theorem HostRequest.elementSlot_write (h : r.address.toNat % wh = 0 ∧ r.length % wh = 0) (hk : r.kind = .write)
    (hslots : ∀ i < r.length / wh, r.fullSlot wh i = true ∨ ∀ j < wh, r.strobed wh i j = false) {i : Nat}
    (hi : i < r.length / wh) (hfull : r.fullSlot wh i = true) :
    r.elementSlot wh ((List.range i).countP (r.fullSlot wh)) = i := by
  have whole : ∀ i < r.length / wh,
      ¬ ((∃ j < wh, r.strobed wh i j = true) ∧ ∃ j < wh, ¬ r.strobed wh i j = true) := by
    rintro i hi ⟨⟨j, hj, hset⟩, j', hj', hclear⟩
    rcases hslots i hi with hf | hc
    · exact hclear (HostRequest.fullSlot_iff.mp hf j' hj')
    · rw [hc j hj] at hset; cases hset
  simp only [HostRequest.elementSlot, (HostRequest.elements_write h hk).2 whole, List.getD_eq_getElem?_getD,
    getElem?_filter_range hi hfull, Option.getD_some]

/-- The bytes of a slot, where the request carries them. -/
theorem HostRequest.slotBytes_eq {i : Nat} {host : List Byte} (hlen : host.length = wh)
    (h : ∀ j < wh, r.data[r.offset + i * wh + j]? = host[j]?) : r.slotBytes wh i = host := by
  refine List.ext_getElem (by simp [HostRequest.slotBytes, hlen]) fun j _ hj => ?_
  simp [HostRequest.slotBytes, List.getD_eq_getElem?_getD, h j (by omega), hj]

end Sys2Proof

namespace Sys2Proof.Machine

open Sys2Proof

/-! ### The lines of an element's bytes (R77) -/

variable {d : Descriptor}

/-- The kept lanes stand in ascending order. -/
theorem Descriptor.keptLanes_sorted : d.keptLanes.Pairwise (· < ·) :=
  List.Pairwise.filter _ (List.Pairwise.filter _ (by decide))

/-- An element's bytes stand at distinct addresses. -/
theorem Descriptor.memoryBytes_distinct (addr : Nat) (host : List Byte) :
    (d.memoryBytes addr host).Pairwise fun m m' => m.1 ≠ m'.1 := by
  refine List.pairwise_map.mpr (d.keptLanes_sorted.imp fun {i j} hlt => ?_)
  have : i.val < j.val := hlt
  dsimp only
  omega

/-- In an ascending list every element lies between the first and the last. -/
theorem head_le_le_getLast {α : Type} [LinearOrder α] {l : List α} (h : l.Pairwise (· < ·)) {a b x : α}
    (ha : l.head? = some a) (hb : l.getLast? = some b) (hx : x ∈ l) : a ≤ x ∧ x ≤ b := by
  constructor
  · obtain ⟨t, rfl⟩ := List.head?_eq_some_iff.mp ha
    rcases List.mem_cons.mp hx with rfl | hx
    · exact le_rfl
    · exact ((List.pairwise_cons.mp h).1 x hx).le
  · obtain ⟨t, rfl⟩ := List.getLast?_eq_some_iff.mp hb
    rcases List.mem_append.mp hx with hx | hx
    · exact ((List.pairwise_append.mp h).2.2 x hx b (by simp)).le
    · exact (List.mem_singleton.mp hx).le

/-- The lines that an element needs are the lines of its kept lanes: at most 4 bytes meet no third line. -/
theorem Descriptor.mem_linesNeeded {addr a : Nat} :
    a ∈ d.linesNeeded addr ↔ ∃ j ∈ d.keptLanes, a = lineOf (addr + j.val) := by
  unfold Descriptor.linesNeeded
  split
  · rename_i i k hi hk
    have first := List.mem_of_head? hi
    have last := List.mem_of_getLast? hk
    have lines : (a ∈ if lineOf (addr + i.val) = lineOf (addr + k.val) then [lineOf (addr + i.val)]
          else [lineOf (addr + i.val), lineOf (addr + k.val)])
        ↔ a = lineOf (addr + i.val) ∨ a = lineOf (addr + k.val) := by
      split <;> simp [*]
    rw [lines]
    constructor
    · rintro (rfl | rfl)
      · exact ⟨i, first, rfl⟩
      · exact ⟨k, last, rfl⟩
    · rintro ⟨j, hj, rfl⟩
      obtain ⟨hij, hjk⟩ := head_le_le_getLast d.keptLanes_sorted hi hk hj
      have hij : i.val ≤ j.val := hij
      have hjk : j.val ≤ k.val := hjk
      simp only [lineOf]
      omega
  · rename_i none_or
    have empty : d.keptLanes = [] := by
      cases h : d.keptLanes with
      | nil => rfl
      | cons j js => exact (none_or j _ (by rw [h]; rfl) (by rw [h]; exact List.getLast?_cons)).elim
    simp [empty]

theorem Descriptor.mem_linesNeeded_iff_byte {addr a : Nat} (host : List Byte) :
    a ∈ d.linesNeeded addr ↔ ∃ m ∈ d.memoryBytes addr host, a = m.1 - m.1 % 32 := by
  rw [Descriptor.mem_linesNeeded]
  simp [Descriptor.memoryBytes, lineOf]

/-! ### One byte in a line (R77) -/

/-- The byte is valid in the line, with its value. -/
structure GatherLine.Carries (l : GatherLine) (m : Nat × Byte) : Prop where
  addr : l.addr = lineOf m.1
  valid : l.valid.getLsbD (m.1 % 32) = true
  data : l.data[m.1 % 32]? = some m.2

theorem GatherLine.issue_carries {l : GatherLine} {m : Nat × Byte} : l.issue.Carries m ↔ l.Carries m :=
  ⟨fun ⟨ha, hv, hd⟩ => ⟨ha, hv, hd⟩, fun ⟨ha, hv, hd⟩ => ⟨ha, hv, hd⟩⟩


/-- A merge makes its byte valid and leaves the others so. -/
theorem GatherLine.put_valid (l : GatherLine) (a i : Nat) (b : Byte) (hi : i < 32) :
    (l.put a b).valid.getLsbD i = (l.valid.getLsbD i || decide (a % 32 = i)) := by
  simp only [GatherLine.put, BitVec.getLsbD_or, BitVec.getLsbD_ofNat, Nat.testBit_two_pow, hi, decide_true, Bool.true_and]

/-- A merge writes its byte and leaves the others. -/
theorem GatherLine.put_data (l : GatherLine) (a i : Nat) (b : Byte) :
    (l.put a b).data[i]? = if a % 32 = i then some b else l.data[i]? := by
  have hsize : a % 32 < 32 := Nat.mod_lt _ (by decide)
  simp only [GatherLine.put, Vector.set!_eq_setIfInBounds, Vector.getElem?_setIfInBounds, hsize, if_true]

theorem GatherLine.put_carries {l : GatherLine} {m : Nat × Byte} (h : l.addr = lineOf m.1) :
    (l.put m.1 m.2).Carries m where
  addr := h
  valid := by simp [GatherLine.put_valid _ _ _ _ (Nat.mod_lt m.1 (by decide : 0 < 32))]
  data := by simp [GatherLine.put_data]

/-- A merge at another address of the line keeps a byte. -/
theorem GatherLine.Carries.put {l : GatherLine} {m m' : Nat × Byte} (h : l.Carries m) (ha : l.addr = lineOf m'.1)
    (hne : m.1 ≠ m'.1) : (l.put m'.1 m'.2).Carries m := by
  have same := h.addr.symm.trans ha
  have apart : m'.1 % 32 ≠ m.1 % 32 := by simp only [lineOf] at same; omega
  have hlt := Nat.mod_lt m.1 (by decide : 0 < 32)
  exact ⟨h.addr, by rw [GatherLine.put_valid _ _ _ _ hlt, h.valid, Bool.true_or],
    by rw [GatherLine.put_data, if_neg apart, h.data]⟩

/-! ### The write range of a line (R56) -/

theorem GatherLine.offsets_sorted (l : GatherLine) : l.offsets.Pairwise (· < ·) :=
  List.Pairwise.filter _ List.pairwise_lt_range

/-- The write range of a line holds the beat of each of its bytes. -/
theorem GatherLine.Carries.beat_in_span {l : GatherLine} {m : Nat × Byte} (h : l.Carries m) :
    l.span.start ≤ beatOf m.1 ∧ beatOf m.1 + 4 ≤ l.span.start + 4 * l.span.beats := by
  have hmem : m.1 % 32 ∈ l.offsets :=
    List.mem_filter.mpr ⟨List.mem_range.mpr (Nat.mod_lt _ (by decide)), h.valid⟩
  have hne := List.ne_nil_of_mem hmem
  have ha := List.head?_eq_some_head hne
  have hb := List.getLast?_eq_some_getLast hne
  obtain ⟨hlo, hhi⟩ := head_le_le_getLast l.offsets_sorted ha hb hmem
  have haddr := h.addr
  simp only [GatherLine.span, ha, hb]
  simp only [lineOf, beatOf] at *
  omega

/-- What lies over a byte's beat lies under the line that carries the byte. -/
theorem GatherLine.Carries.overlaps {l : GatherLine} {m : Nat × Byte} (h : l.Carries m) {p : Span}
    (hp : p.overlaps { start := beatOf m.1, beats := 1 } = true) : l.span.overlaps p = true := by
  obtain ⟨hlo, hhi⟩ := h.beat_in_span
  simp only [Span.overlaps, Bool.and_eq_true, decide_eq_true_eq] at hp ⊢
  omega

/-! ### The lines after a merge (R77) -/

/-- The line takes the byte at a merge: it is OPEN, at the byte's line address. -/
def GatherLine.Takes (l : GatherLine) (m : Nat × Byte) : Prop := l.state = .opened ∧ l.addr = lineOf m.1

section Merge

variable {now : BitVec 32} {x : Context} {m : Nat × Byte}

/-- The two outcomes of a merge: into the OPEN line of the address, or into a new line. -/
theorem Context.mergeByte_lines (now : BitVec 32) (x : Context) (m : Nat × Byte) :
    ((∃ l ∈ x.lines, l.Takes m) ∧ ∃ f : GatherLine → GatherLine, (x.mergeByte now m).lines = x.lines.map f
      ∧ ∀ l, (l.Takes m → f l = l.put m.1 m.2) ∧ (¬ l.Takes m → f l = l))
    ∨ ∃ l : GatherLine, l.Takes m ∧ (x.mergeByte now m).lines = x.lines ++ [l.put m.1 m.2] := by
  unfold Context.mergeByte
  dsimp only
  split
  · rename_i h
    simp only [List.any_eq_true, Bool.and_eq_true, beq_iff_eq] at h
    refine .inl ⟨h, _, rfl, fun l => ?_⟩
    simp only [Bool.and_eq_true, beq_iff_eq]
    exact ⟨fun h => if_pos h, fun h => if_neg h⟩
  · exact .inr ⟨_, ⟨rfl, rfl⟩, rfl⟩

/-- A line after a merge took the byte or stood before. -/
theorem Context.mem_of_mem_mergeByte {l : GatherLine} (h : l ∈ (x.mergeByte now m).lines) :
    l ∈ x.lines ∨ l.Takes m := by
  rcases x.mergeByte_lines now m with ⟨-, f, hf, hcase⟩ | ⟨n, hn, hlines⟩
  · rw [hf] at h
    obtain ⟨l₀, hl₀, rfl⟩ := List.mem_map.mp h
    by_cases ht : l₀.Takes m
    · rw [(hcase l₀).1 ht]; exact .inr ht
    · rw [(hcase l₀).2 ht]; exact .inl hl₀
  · rw [hlines] at h
    rcases List.mem_append.mp h with h | h
    · exact .inl h
    · rw [List.mem_singleton.mp h]; exact .inr hn

/-- A merged byte stands in an OPEN line. -/
theorem Context.mergeByte_carries (now : BitVec 32) (x : Context) (m : Nat × Byte) :
    ∃ l ∈ (x.mergeByte now m).lines, l.state = .opened ∧ l.Carries m := by
  rcases x.mergeByte_lines now m with ⟨⟨l, hl, ht⟩, f, hf, hcase⟩ | ⟨n, hn, hlines⟩
  · refine ⟨l.put m.1 m.2, ?_, ht.1, GatherLine.put_carries ht.2⟩
    rw [hf, ← (hcase l).1 ht]
    exact List.mem_map_of_mem hl
  · exact ⟨n.put m.1 m.2, by simp [hlines], hn.1, GatherLine.put_carries hn.2⟩

/-- A merge keeps the bytes at other addresses. -/
theorem Context.mergeByte_keeps {m' : Nat × Byte} (hne : m'.1 ≠ m.1)
    (h : ∃ l ∈ x.lines, l.state = .opened ∧ l.Carries m') :
    ∃ l ∈ (x.mergeByte now m).lines, l.state = .opened ∧ l.Carries m' := by
  obtain ⟨l, hl, ho, hc⟩ := h
  rcases x.mergeByte_lines now m with ⟨-, f, hf, hcase⟩ | ⟨n, -, hlines⟩
  · refine ⟨f l, hf ▸ List.mem_map_of_mem hl, ?_⟩
    by_cases ht : l.Takes m
    · rw [(hcase l).1 ht]; exact ⟨ho, hc.put ht.2 hne⟩
    · rw [(hcase l).2 ht]; exact ⟨ho, hc⟩
  · exact ⟨l, by simp [hlines, hl], ho, hc⟩

theorem Context.mergeBytes_cons (now : BitVec 32) (x : Context) (m : Nat × Byte) (ms : List (Nat × Byte)) :
    x.mergeBytes now (m :: ms) = (x.mergeByte now m).mergeBytes now ms := rfl

/-- Merging bytes at other addresses keeps a byte. -/
theorem Context.mergeBytes_keeps {m' : Nat × Byte} {bytes : List (Nat × Byte)} (hne : ∀ m ∈ bytes, m'.1 ≠ m.1)
    (h : ∃ l ∈ x.lines, l.state = .opened ∧ l.Carries m') :
    ∃ l ∈ (x.mergeBytes now bytes).lines, l.state = .opened ∧ l.Carries m' := by
  induction bytes generalizing x with
  | nil => exact h
  | cons m ms ih =>
    obtain ⟨hm, hms⟩ := List.forall_mem_cons.mp hne
    exact ih hms (Context.mergeByte_keeps hm h)

/-- Every byte of an element stands in an OPEN line after the merge. -/
theorem Context.mergeBytes_carries {bytes : List (Nat × Byte)} (hd : bytes.Pairwise fun m m' => m.1 ≠ m'.1)
    (hm : m ∈ bytes) : ∃ l ∈ (x.mergeBytes now bytes).lines, l.state = .opened ∧ l.Carries m := by
  induction bytes generalizing x with
  | nil => cases hm
  | cons m' ms ih =>
    obtain ⟨hfirst, hrest⟩ := List.pairwise_cons.mp hd
    rw [Context.mergeBytes_cons]
    rcases List.mem_cons.mp hm with rfl | hm
    · exact Context.mergeBytes_keeps hfirst (x.mergeByte_carries now m)
    · exact ih hrest hm

/-- A line after the merge of an element took one of its bytes or stood before. -/
theorem Context.mem_of_mem_mergeBytes {bytes : List (Nat × Byte)} {l : GatherLine}
    (h : l ∈ (x.mergeBytes now bytes).lines) : l ∈ x.lines ∨ ∃ m ∈ bytes, l.Takes m := by
  induction bytes generalizing x with
  | nil => exact .inl h
  | cons m ms ih =>
    rcases ih h with h | ⟨m', hm', ht⟩
    · exact (Context.mem_of_mem_mergeByte h).imp id fun ht => ⟨m, List.mem_cons_self .., ht⟩
    · exact .inr ⟨m', List.mem_cons_of_mem _ hm', ht⟩

/-- The lines that an element was merged into are those that take one of its bytes. -/
theorem Context.mem_mergedLines {y : Context} {bytes : List (Nat × Byte)} {l : GatherLine} :
    l ∈ y.mergedLines bytes ↔ l ∈ y.lines ∧ ∃ m ∈ bytes, l.Takes m := by
  simp only [Context.mergedLines, GatherLine.Takes, List.mem_filter, Bool.and_eq_true, List.any_eq_true, beq_iff_eq]
  constructor
  · rintro ⟨hl, ho, m, hm, ha⟩
    exact ⟨hl, m, hm, ho, ha.symm⟩
  · rintro ⟨hl, m, hm, ho, ha⟩
    exact ⟨hl, ho, m, hm, ha.symm⟩

theorem Context.issueFull_lines (x : Context) : x.issueFull.lines.map GatherLine.issue = x.lines.map GatherLine.issue := by
  have h := (x.issueSome_resettled fun l => decide (l.valid = BitVec.allOnes 32)).lines
  simpa only [Context.issueFull, decide_eq_true_eq] using h

end Merge

/-- A line of one list is found, up to being ISSUING, in another that agrees with it up to that; the write range and
the bytes carried are the same. -/
theorem mem_of_issue_eq {ls ls' : List GatherLine} (h : ls'.map GatherLine.issue = ls.map GatherLine.issue)
    {l : GatherLine} (hl : l ∈ ls) : ∃ l' ∈ ls', l'.span = l.span ∧ ∀ m, l.Carries m → l'.Carries m := by
  obtain ⟨l', hl', heq⟩ := List.mem_map.mp (h ▸ List.mem_map_of_mem hl : l.issue ∈ ls'.map GatherLine.issue)
  refine ⟨l', hl', ?_, fun m hm => ?_⟩
  · rw [← l'.issue_span, heq, l.issue_span]
  · rwa [← GatherLine.issue_carries, heq, GatherLine.issue_carries]

/-! ### Where a taken write element leaves lines and entries (R38, R63, R77) -/

section Taken

variable {s : State} {c : Ctx} {k : Taking}

/-- The context of `c` with the element's bytes merged (R77, steps 1 and 2). -/
def Taking.mergedInto (k : Taking) (s : State) (c : Ctx) : Context := (s.context c).mergeBytes s.timebase k.bytes

/-- The entry after the element's merge: stale where a line merged into has come to overlap it (R63, R68). -/
def Taking.marked (k : Taking) (s : State) (c : Ctx) (e : Entry) : Entry :=
  if ((k.mergedInto s c).mergedLines k.bytes).any (fun l => l.span.overlaps e.span) = true
  then { e with state := e.state.stale } else e

theorem State.advanceTake_context_of_ne {c' : Ctx} (h : c' ≠ c) :
    (s.advanceTake c k).context c' = s.context c' := by
  unfold State.advanceTake
  dsimp only
  split <;> simp [State.context_setContext_of_ne _ (Ne.symm h)]

theorem State.advanceTake_entries (c' : Ctx) : ((s.advanceTake c k).context c').entries = (s.context c').entries := by
  by_cases h : c' = c
  · subst h; rw [State.advanceTake_context]
  · rw [State.advanceTake_context_of_ne h]

theorem State.advanceTake_lines (c' : Ctx) : ((s.advanceTake c k).context c').lines = (s.context c').lines := by
  by_cases h : c' = c
  · subst h; rw [State.advanceTake_context]
  · rw [State.advanceTake_context_of_ne h]

/-- The element's merge marks the entries of every context. -/
theorem State.afterMove_entries_write (hw : k.d.direction = .write) (c' : Ctx) :
    ((s.afterMove c k).context c').entries = (s.context c').entries.map (k.marked s c) := by
  rw [State.afterMove, State.advanceTake_entries]
  by_cases h : c = c'
  · subst h
    simp only [State.moveElement, hw, State.markStale, State.context_mapContexts, State.context_setContext_self]
    rw [Context.mergeBytes_rest]
    rfl
  · simp only [State.moveElement, hw, State.markStale, State.context_mapContexts, State.context_setContext_of_ne _ h]
    rfl

/-- The element's merge reaches the lines of its context only. -/
theorem State.afterMove_lines_write (hw : k.d.direction = .write) (c' : Ctx) :
    ((s.afterMove c k).context c').lines
      = if c = c' then (k.mergedInto s c).issueFull.lines else (s.context c').lines := by
  rw [State.afterMove, State.advanceTake_lines]
  simp only [State.moveElement, hw, State.markStale, State.context_mapContexts, State.context_setContext]
  split <;> rfl

/-- While the walk goes on, the head is answered if it has all its elements, and head checks follow (R37, R40). -/
theorem State.afterTake_eq_promote {r : State} (ht : (r.context c).take ≠ .exhausted)
    (hp : (r.context c).progress ≠ Config.progressLimit) :
    ∃ u, (u = r ∨ ∃ why, u = r.finishHead c why) ∧ r.afterTake c = u.promote c := by
  by_cases hd : r.demand c = 0
  · have q := r.finishHead_serves c (r.headReason c)
    exact ⟨_, .inr ⟨_, rfl⟩, State.afterTake_goesOn (if_pos hd) (by rwa [q.take]) (by rwa [q.progress])⟩
  · exact ⟨r, .inl rfl, State.afterTake_goesOn (if_neg hd) ht hp⟩

theorem State.afterTake_servesQueue {r : State} (ht : (r.context c).take ≠ .exhausted)
    (hp : (r.context c).progress ≠ Config.progressLimit) : State.ServesQueue c r (r.afterTake c) := by
  obtain ⟨u, rfl | ⟨why, rfl⟩, hu⟩ := State.afterTake_eq_promote ht hp <;> rw [hu]
  · exact u.promote_servesQueue c
  · exact (r.finishHead_servesQueue c why).trans (State.promote_servesQueue _ c)

/-! ### Created entries are PENDING (R59) -/

theorem Context.mem_createEntries {d : Descriptor} {n : Nat} {x : Context} {e : Entry}
    (h : e ∈ (x.createEntries d n).entries) : e ∈ x.entries ∨ e.state = .pending := by
  induction n generalizing x with
  | zero => exact .inl h
  | succ n ih =>
    unfold Context.createEntries at h
    split at h
    · exact .inl h
    · rcases ih h with h | h
      · rcases List.mem_append.mp h with h | h
        · exact .inl h
        · rw [List.mem_singleton.mp h]; exact .inr rfl
      · exact .inr h

theorem State.mem_fillContext {x : Context} {e : Entry} (h : e ∈ (s.fillContext c x).entries) :
    e ∈ x.entries ∨ e.state = .pending := by
  unfold State.fillContext at h
  split at h
  · split at h
    · exact Context.mem_createEntries h
    · exact .inl h
  · exact .inl h

/-- Finishing a head leaves the entries. -/
theorem State.finishHead_entries (s : State) (c : Ctx) (why : Option HostReason) :
    ((s.finishHead c why).context c).entries = (s.context c).entries := by
  cases h : (s.context c).service with
  | nil => rw [s.finishHead_nil h]
  | cons t rest => rw [s.finishHead_cons h]; simp [State.popHead]

theorem State.mem_acceptFill {t : HostTag} {x : HostSlot} {n : Nat} {e : Entry}
    (h : e ∈ (((s.acceptHead c t x n).fillAt c).context c).entries) :
    e ∈ (s.context c).entries ∨ e.state = .pending := by
  rw [State.fillAt, State.context_setContext_self] at h
  simpa [State.acceptHead] using State.mem_fillContext h

/-- Head checks create PENDING entries only (R58, R59). -/
theorem State.mem_promoteN {n : Nat} {e : Entry} (h : e ∈ ((State.promoteN c n s).context c).entries) :
    e ∈ (s.context c).entries ∨ e.state = .pending := by
  induction n generalizing s with
  | zero => exact .inl h
  | succ n ih =>
    rcases s.promoteN_succ c n with eq | ⟨t, x, r, why, -, hr, eq⟩ | ⟨t, x, m, -, eq⟩ <;> rw [eq] at h
    · exact .inl h
    · rcases ih h with h | h
      · rw [r.finishHead_entries] at h
        rcases hr with rfl | ⟨m, rfl⟩
        · exact .inl h
        · exact State.mem_acceptFill h
      · exact .inr h
    · exact State.mem_acceptFill h

/-- While the walk goes on, the entries that follow a taken element are PENDING. -/
theorem State.mem_afterTake {r : State} (ht : (r.context c).take ≠ .exhausted)
    (hp : (r.context c).progress ≠ Config.progressLimit) {c' : Ctx} {e : Entry}
    (h : e ∈ ((r.afterTake c).context c').entries) : e ∈ (r.context c').entries ∨ e.state = .pending := by
  by_cases hc : c' = c
  · subst hc
    obtain ⟨u, hr, hu⟩ := State.afterTake_eq_promote ht hp
    rw [hu] at h
    rcases hr with rfl | ⟨why, rfl⟩
    · exact State.mem_promoteN h
    · rw [← r.finishHead_entries c' why]
      exact State.mem_promoteN h
  · rw [(State.afterTake_servesQueue ht hp).others c' hc] at h
    exact .inl h

theorem State.mem_settle {c' : Ctx} {e : Entry} (h : e ∈ (s.settle.context c').entries) :
    e ∈ (s.context c').entries ∨ e.state = .pending := by
  rw [s.settle_entries] at h
  exact State.mem_fillContext h

/-! ### The taken write element (R51, R63, R68, R77) -/

/-- What taking a write element leaves of lines and entries, up to lines made ISSUING and new PENDING entries. -/
structure Taking.Merged (k : Taking) (s t : State) (c : Ctx) : Prop where
  own : (t.context c).lines.map GatherLine.issue = (k.mergedInto s c).lines.map GatherLine.issue
  others : ∀ c', c' ≠ c → (t.context c').lines.map GatherLine.issue = (s.context c').lines.map GatherLine.issue
  entries : ∀ c', (s.context c').entries.map (k.marked s c) <+: (t.context c').entries
  created : ∀ c', ∀ e ∈ (t.context c').entries, e ∈ (s.context c').entries.map (k.marked s c) ∨ e.state = .pending

theorem State.elementTake_merged (hk : s.nextElement c = some k) (hm : s.mayTake c k = true)
    (hw : k.d.direction = .write) (ht : (k.d.advance k.pos).1 ≠ .exhausted)
    (hp : (s.context c).progress + 1 ≠ 2 ^ 48 - 1) : k.Merged s (s.elementTake c) c := by
  have ht : ((s.afterMove c k).context c).take ≠ .exhausted := by rwa [s.afterMove_take]
  have hp : ((s.afterMove c k).context c).progress ≠ Config.progressLimit := by rwa [s.afterMove_progress]
  have q := (State.afterTake_servesQueue ht hp).serves
  have r := ((s.afterMove c k).afterTake c).settle_resettled
  have hlines (c' : Ctx) := (r.contexts c').lines.trans (congrArg (List.map GatherLine.issue) (q.lines c'))
  simp only [State.afterMove_lines_write hw] at hlines
  rw [State.elementTake_taken hk hm]
  refine ⟨?_, fun c' hc => ?_, fun c' => ?_, fun c' e he => ?_⟩
  · rw [hlines, if_pos rfl, Context.issueFull_lines]
  · rw [hlines, if_neg (Ne.symm hc)]
  · rw [← State.afterMove_entries_write hw]
    exact (q.entries c').trans (r.contexts c').entries
  · rw [← State.afterMove_entries_write hw]
    rcases State.mem_settle he with he | he
    · exact State.mem_afterTake ht hp he
    · exact .inr he

/-- The entry is REQUESTED or FILLED: a merge over it makes it stale (R63). -/
def Entry.Fetched (e : Entry) : Prop := e.state = .requested ∨ ∃ data, e.state = .filled data

/-- No gather line overlaps a REQUESTED or FILLED entry (R68). -/
def State.Fresh (s : State) : Prop := ∀ c', ∀ e ∈ (s.context c').entries, e.Fetched →
  ∀ c'', ∀ l ∈ (s.context c'').lines, l.span.overlaps e.span = false

theorem EntryState.stale_not_fetched (e : EntryState) : e.stale ≠ .requested ∧ ∀ data, e.stale ≠ .filled data := by
  cases e <;> simp [EntryState.stale]

/-- An entry that stays REQUESTED or FILLED was so before, and no line merged into overlaps it. -/
theorem Taking.marked_fetched {e : Entry} (h : (k.marked s c e).Fetched) : k.marked s c e = e
    ∧ ∀ l ∈ (k.mergedInto s c).mergedLines k.bytes, l.span.overlaps e.span = false := by
  unfold Taking.marked at h ⊢
  split at h
  · obtain ⟨hr, hf⟩ := e.state.stale_not_fetched
    rcases h with h | ⟨data, h⟩
    · exact absurd h hr
    · exact absurd h (hf data)
  · rename_i hno
    exact ⟨if_neg hno, by simpa using hno⟩

namespace Taking.Merged

variable {t : State} (h : k.Merged s t c)
include h

/-- Every byte of the element is a valid byte of a line (R51, R77). -/
theorem carries {m : Nat × Byte} (hm : m ∈ k.bytes) : ∃ l ∈ (t.context c).lines, l.Carries m := by
  obtain ⟨l, hl, -, hc⟩ := (s.context c).mergeBytes_carries (now := s.timebase)
    (k.d.memoryBytes_distinct _ _) hm
  obtain ⟨l', hl', -, hsame⟩ := mem_of_issue_eq h.own hl
  exact ⟨l', hl', hsame m hc⟩

/-- Every entry over a byte's beat is marked stale (R63). -/
theorem stale {m : Nat × Byte} (hm : m ∈ k.bytes) {c' : Ctx} {e : Entry} (he : e ∈ (s.context c').entries)
    (hov : e.span.overlaps { start := beatOf m.1, beats := 1 } = true) :
    { e with state := e.state.stale } ∈ (t.context c').entries := by
  obtain ⟨l, hl, ho, hc⟩ := (s.context c).mergeBytes_carries (now := s.timebase)
    (k.d.memoryBytes_distinct _ _) hm
  have hmerged : l ∈ (k.mergedInto s c).mergedLines k.bytes := Context.mem_mergedLines.mpr ⟨hl, m, hm, ho, hc.addr⟩
  have hmark : k.marked s c e = { e with state := e.state.stale } :=
    if_pos (List.any_eq_true.mpr ⟨l, hmerged, hc.overlaps hov⟩)
  rw [← hmark]
  exact (h.entries c').subset (List.mem_map_of_mem he)

/-- A line either stood before, up to being made ISSUING, or was merged into. -/
theorem line_before_or_merged {c' : Ctx} {l : GatherLine} (hl : l ∈ (t.context c').lines) :
    (∃ l₀ ∈ (s.context c').lines, l₀.span = l.span)
      ∨ ∃ l₀ ∈ (k.mergedInto s c).mergedLines k.bytes, l₀.span = l.span := by
  by_cases hc : c' = c
  · subst hc
    obtain ⟨l₀, hl₀, hspan, -⟩ := mem_of_issue_eq h.own.symm hl
    rcases Context.mem_of_mem_mergeBytes hl₀ with hold | htook
    · exact .inl ⟨l₀, hold, hspan⟩
    · exact .inr ⟨l₀, Context.mem_mergedLines.mpr ⟨hl₀, htook⟩, hspan⟩
  · obtain ⟨l₀, hl₀, hspan, -⟩ := mem_of_issue_eq (h.others c' hc).symm hl
    exact .inl ⟨l₀, hl₀, hspan⟩

/-- No REQUESTED or FILLED entry comes to overlap a line (R68). -/
theorem fresh (hs : s.Fresh) : t.Fresh := by
  intro c' e he hf c'' l hl
  rcases h.created c' e he with he | hpend
  · obtain ⟨e₀, he₀, rfl⟩ := List.mem_map.mp he
    obtain ⟨hsame, hclear⟩ := Taking.marked_fetched hf
    rw [hsame] at hf ⊢
    rcases h.line_before_or_merged hl with ⟨l₀, hl₀, hspan⟩ | ⟨l₀, hl₀, hspan⟩ <;> rw [← hspan]
    · exact hs c' e₀ he₀ hf c'' l₀ hl₀
    · exact hclear l₀ hl₀
  · rcases hf with hf | ⟨data, hf⟩ <;> rw [hpend] at hf <;> cases hf

end Taking.Merged

end Taken

/-- Settles O14: the element's bytes stand in lines of their context by the laws of the merge, and the marks cover the
write ranges of the lines merged into; the slot of the element is found by counting the full slots before it. -/
theorem takenWriteElementIsMerged : Obligations.TakenWriteElementIsMerged := by
  refine ⟨fun s c k p w hk hm hw ha hp => ?_, fun k _ => ⟨fun a => Descriptor.mem_linesNeeded_iff_byte _, ?_⟩⟩
  · have h := State.elementTake_merged hk hm hw (by simp [ha]) hp
    refine ⟨_, rfl, fun m hmem => ⟨?_, fun c' _ e he hov => h.stale hmem he hov⟩, fun c' _ => h.entries c', h.fresh⟩
    obtain ⟨l, hl, hc⟩ := h.carries hmem
    exact ⟨l, hl, hc.addr, hc.valid, hc.data⟩
  · intro r wh strobed full hkind hal hlen hslots i host hi hfull hcount hhost hdata
    have hslot : r.elementSlot wh k.head.taken = i := by
      rw [← hcount]
      exact HostRequest.elementSlot_write ⟨hal, hlen⟩ hkind hslots hi hfull
    have hbytes : r.slotBytes wh i = host := HostRequest.slotBytes_eq hhost hdata
    show k.d.memoryBytes _ (r.slotBytes wh (r.elementSlot wh k.head.taken)) = _
    rw [hslot, hbytes]

end Sys2Proof.Machine
end

section
/-! The buffer law (O59): what keeps the capacities of the Read-Ahead Queues and gather lines and one OPEN line per line
address, and that every command does. -/

namespace Sys2Proof.Machine

open Sys2Proof

/-! ### Operations that keep the buffer law -/

/-- From `s` to `t` every context that meets the buffer law goes on meeting it. -/
def State.KeepsBuffers (s t : State) : Prop := ∀ c, (s.context c).BufferLaw → (t.context c).BufferLaw

theorem State.KeepsBuffers.refl (s : State) : s.KeepsBuffers s := fun _ h => h

theorem State.KeepsBuffers.trans {s t u : State} (h : s.KeepsBuffers t) (k : t.KeepsBuffers u) : s.KeepsBuffers u :=
  fun c hc => k c (h c hc)

theorem State.KeepsBuffers.of_ctx {s t : State} (h : t.ctx = s.ctx) : s.KeepsBuffers t := fun c hc => by
  have e : t.context c = s.context c := by simp [State.context, h]
  rwa [e]

theorem State.KeepsBuffers.ite {s t : State} (h : s.KeepsBuffers t) (p : Prop) [Decidable p] :
    s.KeepsBuffers (if p then t else s) := by
  split
  · exact h
  · exact .refl s

theorem State.setContext_keepsBuffers (s : State) {c : Ctx} {x : Context} (h : (s.context c).BufferLaw → x.BufferLaw) :
    s.KeepsBuffers (s.setContext c x) := fun c' hc => by
  by_cases e : c = c'
  · subst e; simpa using h hc
  · simpa [State.context_setContext_of_ne _ e] using hc

theorem State.mapContexts_keepsBuffers (s : State) {f : Ctx → Context → Context}
    (h : ∀ c, (s.context c).BufferLaw → (f c (s.context c)).BufferLaw) : s.KeepsBuffers (s.mapContexts f) :=
  fun c hc => by simpa using h c hc

theorem Context.BufferLaw.congr {x y : Context} (h : x.BufferLaw) (hl : y.lines = x.lines)
    (he : y.entries.length ≤ max 8 x.entries.length) : y.BufferLaw := by
  obtain ⟨hlen, hlines⟩ := h
  exact ⟨by omega, by rw [hl]; exact hlines⟩

/-- Writing a record with the same entries and lines. -/
theorem State.setContext_sameBuffers (s : State) {c : Ctx} {x : Context} (hl : x.lines = (s.context c).lines)
    (he : x.entries = (s.context c).entries) : s.KeepsBuffers (s.setContext c x) :=
  s.setContext_keepsBuffers fun h => h.congr hl (by rw [he]; exact Nat.le_max_right _ _)

/-- Rewriting entries one by one changes no capacity (R63, R65). -/
theorem Context.BufferLaw.mapEntries {x : Context} (h : x.BufferLaw) (f : Entry → Entry) :
    Context.BufferLaw { x with entries := x.entries.map f } := h.congr rfl (by simp)

/-- Without lines a context needs the capacity of its queue only. -/
theorem Context.BufferLaw.noLines {x : Context} (h : x.BufferLaw) :
    Context.BufferLaw { x with lines := [], issuing := [] } :=
  ⟨h.1, by simp, by simp, .nil⟩

/-! ### Lines that close or leave (R61, R78, R86) -/

/-- The line stays as it is or becomes ISSUING. -/
def GatherLine.Closes (a b : GatherLine) : Prop := b = a ∨ b = a.issue

theorem GatherLine.issue_if_closes (l : GatherLine) (p : Prop) [Decidable p] :
    l.Closes (if p then l.issue else l) := by
  by_cases h : p
  · exact .inr (if_pos h)
  · exact .inl (if_neg h)

theorem GatherLine.Closes.addr {a b : GatherLine} (h : a.Closes b) : b.addr = a.addr := by
  rcases h with rfl | rfl <;> rfl

theorem GatherLine.Closes.valid {a b : GatherLine} (h : a.Closes b) : b.valid = a.valid := by
  rcases h with rfl | rfl <;> rfl

theorem GatherLine.Closes.opened {a b : GatherLine} (h : a.Closes b) (ho : b.state = .opened) : a.state = .opened := by
  rcases h with rfl | rfl
  · exact ho
  · cases ho

/-- A line of the list that closed stood in the list before. -/
theorem exists_closes_of_mem {ls ms : List GatherLine} (h : List.Forall₂ GatherLine.Closes ls ms) {m : GatherLine}
    (hm : m ∈ ms) : ∃ l ∈ ls, l.Closes m := by
  induction h with
  | nil => cases hm
  | @cons a b ls ms hab _ ih =>
    rcases List.mem_cons.mp hm with rfl | hm
    · exact ⟨a, List.mem_cons_self .., hab⟩
    · obtain ⟨l, hl, hlm⟩ := ih hm
      exact ⟨l, List.mem_cons_of_mem _ hl, hlm⟩

/-- The part of the buffer law that is about the lines. -/
def LinesLaw (ls : List GatherLine) : Prop :=
  (∀ l ∈ ls, l.addr % 32 = 0 ∧ l.valid ≠ 0)
    ∧ ls.Pairwise fun a b => a.state = .opened → b.state = .opened → a.addr ≠ b.addr

theorem Context.bufferLaw_iff {x : Context} :
    x.BufferLaw ↔ x.entries.length ≤ 8 ∧ x.lines.length ≤ 4 ∧ LinesLaw x.lines := Iff.rfl

/-- Lines that leave take nothing from the law of the others. -/
theorem LinesLaw.sublist {ls ms : List GatherLine} (h : LinesLaw ls) (hsub : ms.Sublist ls) : LinesLaw ms :=
  ⟨fun l hl => h.1 l (hsub.subset hl), h.2.sublist hsub⟩

/-- A line that becomes ISSUING leaves its address to the others. -/
theorem LinesLaw.closes {ls ms : List GatherLine} (h : LinesLaw ls) (hc : List.Forall₂ GatherLine.Closes ls ms) :
    LinesLaw ms := by
  induction hc with
  | nil => exact h
  | @cons a b ls ms hab hrest ih =>
    obtain ⟨hmem, hpair⟩ := h
    obtain ⟨hfirst, hpair⟩ := List.pairwise_cons.mp hpair
    obtain ⟨ha, hmem⟩ := List.forall_mem_cons.mp hmem
    obtain ⟨hmem', hpair'⟩ := ih ⟨hmem, hpair⟩
    refine ⟨List.forall_mem_cons.mpr ⟨by rwa [hab.addr, hab.valid], hmem'⟩, List.pairwise_cons.mpr ⟨?_, hpair'⟩⟩
    intro m hm hb ho
    obtain ⟨l, hl, hlm⟩ := exists_closes_of_mem hrest hm
    rw [hab.addr, hlm.addr]
    exact hfirst l hl (hab.opened hb) (hlm.opened ho)

/-- Lines that close keep the law of their context. -/
theorem Context.BufferLaw.closes {x y : Context} (h : x.BufferLaw) (hc : List.Forall₂ GatherLine.Closes x.lines y.lines)
    (he : y.entries = x.entries) : y.BufferLaw := by
  obtain ⟨hlen, hcount, hlines⟩ := Context.bufferLaw_iff.mp h
  exact ⟨he ▸ hlen, hc.length_eq ▸ hcount, hlines.closes hc⟩

/-- Making the lines that a test selects ISSUING closes lines. -/
theorem map_issue_closes (ls : List GatherLine) (p : GatherLine → Prop) [DecidablePred p] :
    List.Forall₂ GatherLine.Closes ls (ls.map fun l => if p l then l.issue else l) :=
  List.forall₂_map_right_iff.mpr (List.forall₂_same.mpr fun l _ => l.issue_if_closes (p l))

theorem Context.BufferLaw.issueSome {x : Context} (h : x.BufferLaw) (p : GatherLine → Prop) [DecidablePred p] :
    Context.BufferLaw { x with lines := x.lines.map fun l => if p l then l.issue else l } :=
  h.closes (map_issue_closes x.lines p) rfl

theorem Context.BufferLaw.issueAll {x : Context} (h : x.BufferLaw) : x.issueAll.BufferLaw :=
  h.closes (List.forall₂_map_right_iff.mpr (List.forall₂_same.mpr fun _ _ => .inr rfl)) rfl

/-- Evictions close lines (R78). -/
theorem evict_closes (n : Nat) (need : List Nat) (ls : List GatherLine) :
    List.Forall₂ GatherLine.Closes ls (evict n need ls) := by
  induction ls generalizing n with
  | nil => cases n <;> exact .nil
  | cons l ls ih =>
    cases n with
    | zero => exact List.forall₂_same.mpr fun _ _ => .inl rfl
    | succ n =>
      unfold evict
      split
      · exact .cons (.inr rfl) (ih _)
      · exact .cons (.inl rfl) (ih _)

/-! ### Settling (R58, R59, R61, R78) -/

theorem State.fillTarget_le (s : State) (c : Ctx) (d : Descriptor) : s.fillTarget c d ≤ 8 := Nat.min_le_left _ _

/-- Filling creates entries within the capacity only (R54, R58). -/
theorem State.fillContext_length (s : State) (c : Ctx) (x : Context) :
    (s.fillContext c x).entries.length ≤ max 8 x.entries.length := by
  unfold State.fillContext
  split
  · rename_i d _ _
    split
    · have := (x.createEntries_created d (s.fillTarget c d - x.entries.length)).2.1
      have := s.fillTarget_le c d
      omega
    · exact Nat.le_max_right _ _
  · exact Nat.le_max_right _ _

theorem Context.BufferLaw.fillContext {x : Context} (h : x.BufferLaw) (s : State) (c : Ctx) :
    (s.fillContext c x).BufferLaw := h.congr (by rw [(s.fillContext_rest c x).1]) (s.fillContext_length c x)

theorem Context.BufferLaw.withHold {x : Context} (h : x.BufferLaw) (now : BitVec 32) (d : Hold) :
    (x.withHold now d).BufferLaw := h

theorem Context.BufferLaw.stepTwo {x : Context} (h : x.BufferLaw) (now : BitVec 32) : (x.stepTwo now).BufferLaw := by
  unfold Context.stepTwo
  split
  · split
    · generalize x.entries.head?.map Entry.state = st
      rcases st with _ | e
      · exact h.withHold now .data
      · cases e with
        | filled | poisoned => exact h.withHold now .none
        | pending | requested | requestedStale => exact h.withHold now .data
    · dsimp only
      split
      · exact h.withHold now .none
      · exact h.closes (evict_closes _ _ _) rfl
  · exact h

theorem Context.BufferLaw.decideHold {x : Context} (h : x.BufferLaw) (s : State) (c : Ctx) :
    (s.decideHold c x).BufferLaw := by
  unfold State.decideHold
  split
  · exact h
  · split
    · split
      · exact h
      · exact h
      · exact h
      · exact h.stepTwo _
    · exact h
  · exact h

theorem State.decideAfresh_keepsBuffers (s : State) : s.KeepsBuffers s.decideAfresh :=
  ((s.mapContexts_keepsBuffers fun c h => h.fillContext s c).trans
    (s.fill.mapContexts_keepsBuffers fun _ h => h.issueSome _)).trans
    (State.mapContexts_keepsBuffers _ fun c h => h.decideHold _ c)

theorem State.orderIssuing_keepsBuffers (s : State) : s.KeepsBuffers (s.mapContexts fun _ x => x.orderIssuing) :=
  s.mapContexts_keepsBuffers fun _ h => h

theorem State.settle_keepsBuffers (s : State) : s.KeepsBuffers s.settle :=
  s.decideAfresh_keepsBuffers.trans (State.orderIssuing_keepsBuffers _)

theorem State.KeepsBuffers.settle {s t : State} (h : s.KeepsBuffers t) : s.KeepsBuffers t.settle :=
  h.trans t.settle_keepsBuffers

/-! ### Answers, head checks and link breaks (R36, R37, R58, R106) -/

theorem State.post_keepsBuffers (s : State) (e : EventRecord) : s.KeepsBuffers (s.post e) := .of_ctx (s.post_ctx e)

theorem State.answer_keepsBuffers (s : State) (t : HostTag) (why : Option HostReason) :
    s.KeepsBuffers (s.answer t why) := fun c h => by rwa [s.answer_context]

/-- Serving one queue keeps the law while its read-ahead stays within the capacity. -/
theorem State.ServesQueue.keepsBuffers {c : Ctx} {s t : State} (h : State.ServesQueue c s t)
    (he : (t.context c).entries.length ≤ max 8 (s.context c).entries.length) : s.KeepsBuffers t := fun c' hc => by
  by_cases e : c' = c
  · subst e; exact hc.congr (h.serves.lines c') he
  · rwa [h.others c' e]

theorem State.finishHead_keepsBuffers (s : State) (c : Ctx) (why : Option HostReason) :
    s.KeepsBuffers (s.finishHead c why) :=
  (s.finishHead_servesQueue c why).keepsBuffers (by rw [s.finishHead_entries]; exact Nat.le_max_right _ _)

theorem State.acceptFill_length (s : State) (c : Ctx) (t : HostTag) (x : HostSlot) (k : Nat) :
    (((s.acceptHead c t x k).fillAt c).context c).entries.length ≤ max 8 (s.context c).entries.length := by
  rw [State.fillAt, State.context_setContext_self]
  refine (State.fillContext_length _ c _).trans ?_
  simp [State.acceptHead]

/-- Head checks create entries within the capacity only (R58, R59). -/
theorem State.promoteN_length (c : Ctx) (n : Nat) (s : State) :
    ((State.promoteN c n s).context c).entries.length ≤ max 8 (s.context c).entries.length := by
  induction n generalizing s with
  | zero => exact Nat.le_max_right _ _
  | succ n ih =>
    rcases s.promoteN_succ c n with e | ⟨t, x, r, why, -, hr, e⟩ | ⟨t, x, k, -, e⟩ <;> rw [e]
    · exact Nat.le_max_right _ _
    · have := ih (r.finishHead c why)
      rw [r.finishHead_entries] at this
      rcases hr with rfl | ⟨k, rfl⟩
      · exact this
      · have := s.acceptFill_length c t x k
        omega
    · exact s.acceptFill_length c t x k

theorem State.promote_keepsBuffers (s : State) (c : Ctx) : s.KeepsBuffers (s.promote c) :=
  (s.promote_servesQueue c).keepsBuffers (State.promoteN_length c _ s)

theorem State.finishEarly_keepsBuffers (s : State) (c : Ctx) (why : HostReason) :
    s.KeepsBuffers (s.finishEarly c why) :=
  (s.finishHead_keepsBuffers c _).trans (State.promote_keepsBuffers _ c)

theorem State.answerAll_keepsBuffers (s : State) (c : Ctx) (why : HostReason) : s.KeepsBuffers (s.answerAll c why) :=
  fun c' h => by
    rw [s.answerAll_context]; split
    · rename_i e; subst e; exact h
    · exact h

theorem State.breakLinks_keepsBuffers (s : State) (c : Ctx) (why : Reason) : s.KeepsBuffers (s.breakLinks c why) := by
  have folds (fs : List Ctx) (r : State) : r.KeepsBuffers (fs.foldl (State.breakLink c why) r) := by
    induction fs generalizing r with
    | nil => exact .refl r
    | cons f fs ih =>
      refine State.KeepsBuffers.trans ?_ (ih _)
      rcases r.breakLink_cases c why f with e | ⟨l, -, -, -, e⟩ <;> rw [e]
      · exact .refl r
      · exact State.KeepsBuffers.trans (fun g h => by rwa [r.linkCut_context]) (State.promote_keepsBuffers _ f)
  exact folds allCtx s

/-! ### Walks that launch, fault, end or are aborted (R23, R24, R28, R30, R32, R34) -/

theorem State.faultContext_keepsBuffers (s : State) (c : Ctx) (why : FaultReason) :
    s.KeepsBuffers (s.faultContext c why) := by
  rw [s.faultContext_eq, State.faulting]
  exact ((s.answerAll_keepsBuffers c _).trans (State.setContext_sameBuffers _ (by rfl) (by rfl))).trans
    (State.breakLinks_keepsBuffers _ c _)

theorem State.launch_keepsBuffers (s : State) (c : Ctx) (i : DescIx) : s.KeepsBuffers (s.launch c i) := by
  cases h : s.launchCheck (s.desc i) with
  | none =>
    rw [State.launch_accepted h]
    exact ((s.setContext_sameBuffers (x := (s.context c).launched i (s.desc i)) rfl rfl).trans
      (.of_ctx (State.rearm_ctx _ c))).trans (State.promote_keepsBuffers _ c)
  | some why =>
    rw [State.launch_refused h]
    exact (s.post_keepsBuffers _).trans (State.faultContext_keepsBuffers _ c _)

theorem State.launchNext_keepsBuffers (s : State) (c : Ctx) : s.KeepsBuffers (s.launchNext c) := by
  cases h : (s.context c).launchQ with
  | nil => rw [State.launchNext_nil h]; exact .refl s
  | cons i q =>
    rw [State.launchNext_cons h]
    exact State.KeepsBuffers.trans (s.setContext_sameBuffers (by rfl) (by rfl)) (State.launch_keepsBuffers _ c i)

theorem State.completeDrain_keepsBuffers (s : State) (c : Ctx) : s.KeepsBuffers (s.completeDrain c) := by
  unfold State.completeDrain
  dsimp only
  have reported := State.KeepsBuffers.ite (s.post_keepsBuffers (s.walkDoneRecord c))
    (((s.context c).snapshot.map Descriptor.doneEvent).getD false = true)
  generalize (if ((s.context c).snapshot.map Descriptor.doneEvent).getD false = true then s.post (s.walkDoneRecord c)
    else s) = r at reported
  refine reported.trans ?_
  split
  · exact r.launch_keepsBuffers c _
  · split
    · exact State.KeepsBuffers.trans (r.setContext_sameBuffers (by rfl) (by rfl)) (State.answerAll_keepsBuffers _ c _)
    · exact r.launchNext_keepsBuffers c

theorem State.drainIfDone_keepsBuffers (s : State) (c : Ctx) : s.KeepsBuffers (s.drainIfDone c) :=
  (s.completeDrain_keepsBuffers c).ite _

/-- Detachment touches no context (R139). -/
theorem State.detach_keepsBuffers (s : State) (p : Origin → Bool) (b : Bool) : s.KeepsBuffers (s.detach p b) :=
  .of_ctx rfl

theorem State.discardReadAhead_keepsBuffers (s : State) (c : Ctx) : s.KeepsBuffers (s.discardReadAhead c) :=
  State.KeepsBuffers.trans (t := s.setContext c { s.context c with entries := [] })
    (s.setContext_keepsBuffers fun h => h.congr rfl (by simp)) (State.detach_keepsBuffers _ _ _)

theorem State.discardLines_keepsBuffers (s : State) (c : Ctx) : s.KeepsBuffers (s.discardLines c) :=
  s.setContext_keepsBuffers (x := { s.context c with lines := [], issuing := [] }) fun h => h.noLines

theorem State.endWalk_keepsBuffers (s : State) (c : Ctx) (why : EndCause) : s.KeepsBuffers (s.endWalk c why) := by
  have ended : s.KeepsBuffers (s.setContext c ((s.context c).ended why)) :=
    s.setContext_keepsBuffers fun h => h.issueAll
  refine State.KeepsBuffers.trans ?_ (State.drainIfDone_keepsBuffers _ c)
  exact ended.trans (State.KeepsBuffers.ite (State.discardReadAhead_keepsBuffers _ c) _)

theorem State.abort_keepsBuffers (s : State) (c : Ctx) (breaks purge : Bool) :
    s.KeepsBuffers (s.abort c breaks purge) := by
  have cleared : s.KeepsBuffers (s.cleared c) :=
    (((s.discardLines_keepsBuffers c).trans (State.detach_keepsBuffers _ _ _)).trans
      (State.discardReadAhead_keepsBuffers _ c)).trans (State.answerAll_keepsBuffers _ c _)
  rw [s.abort_eq]
  exact (cleared.trans ((State.breakLinks_keepsBuffers _ c _).ite _)).trans
    (State.setContext_sameBuffers _ (by rfl) (by rfl))

/-! ### Memory's answers and timeouts (R65, R66, R90, R145) -/

theorem State.lineFailed_keepsBuffers (s : State) (c : Ctx) (n : BitVec 16) (l : Nat) (b : Bool) (why : FaultReason)
    (r : Reason) : s.KeepsBuffers (s.lineFailed c n l b why r) :=
  (s.post_keepsBuffers _).trans (State.KeepsBuffers.ite
    (((State.discardLines_keepsBuffers _ c).trans (State.detach_keepsBuffers _ _ _)).trans
      (State.faultContext_keepsBuffers _ c why)) _)

theorem State.setEntry_keepsBuffers (s : State) (c : Ctx) (q : Nat) (st : EntryState) :
    s.KeepsBuffers (s.setEntry c q st) := s.setContext_keepsBuffers fun h => h.mapEntries _

theorem State.readFailed_keepsBuffers (s : State) (c : Ctx) (n : BitVec 16) (q : Nat) (r : Reason) :
    s.KeepsBuffers (s.readFailed c n q r) := by
  unfold State.readFailed
  split
  · exact .refl s
  · exact (s.setEntry_keepsBuffers c q _).trans (State.post_keepsBuffers _ _)

theorem State.readOkay_keepsBuffers (s : State) (c : Ctx) (q : Nat) (data : List Byte) :
    s.KeepsBuffers (s.readOkay c q data) := by
  unfold State.readOkay
  split
  · exact .refl s
  · split <;> exact s.setEntry_keepsBuffers c q _

theorem State.hostOkay_keepsBuffers (s : State) (u : HostTag) (data : List Byte) :
    s.KeepsBuffers (s.hostOkay u data) := by
  unfold State.hostOkay
  split
  · exact .refl s
  · dsimp only
    split
    · exact .refl s
    · exact State.answer_keepsBuffers (s.setSlot u _) u none

theorem State.deliver_keepsBuffers (s : State) (e : TrackEntry) (st : MemStatus) (data : List Byte) :
    s.KeepsBuffers (s.deliver e st data) := by
  unfold State.deliver
  split
  · exact s.hostOkay_keepsBuffers _ _
  · exact s.answer_keepsBuffers _ _
  · split
    · exact .refl s
    · exact s.readOkay_keepsBuffers _ _ _
  · split
    · exact .refl s
    · exact s.readFailed_keepsBuffers _ _ _ _
  · split
    · exact .refl s
    · exact s.drainIfDone_keepsBuffers _
  · exact s.lineFailed_keepsBuffers _ _ _ _ _ _

theorem State.response_keepsBuffers (s : State) (m : MemTag) (st : MemStatus) (data : List Byte) :
    s.KeepsBuffers (s.response m st data) := by
  unfold State.response
  split
  · exact .refl s
  · split
    · exact s.post_keepsBuffers _
    · dsimp only
      split
      · exact State.post_keepsBuffers (s.setTrack m none) _
      · exact (State.deliver_keepsBuffers (s.setTrack m none) _ st data).settle

theorem State.tellTimeout_keepsBuffers (s : State) (e : TrackEntry) : s.KeepsBuffers (s.tellTimeout e) := by
  unfold State.tellTimeout
  split
  · exact s.answer_keepsBuffers _ _
  · split
    · exact .refl s
    · exact s.readFailed_keepsBuffers _ _ _ _
  · exact s.lineFailed_keepsBuffers _ _ _ _ _ _

theorem State.timeoutRequest_keepsBuffers (s : State) (m : MemTag) : s.KeepsBuffers (s.timeoutRequest m) := by
  have told (e : TrackEntry) : s.KeepsBuffers (s.quarantine m e) := by
    have posted := State.post_keepsBuffers (s.setTrack m (some { e with state := .quarantined }))
      (s.trackRecord .memoryTimeout m e)
    unfold State.quarantine
    dsimp only
    refine State.KeepsBuffers.trans (t := (s.setTrack m (some { e with state := .quarantined })).post
      (s.trackRecord .memoryTimeout m e)) posted ?_
    generalize (s.setTrack m (some { e with state := .quarantined })).post (s.trackRecord .memoryTimeout m e) = r
    split
    · refine State.KeepsBuffers.trans (t := { r with choices := s.choices + 1 }) (.of_ctx rfl) ?_
      split
      · exact (State.post_keepsBuffers _ _).trans (State.tellTimeout_keepsBuffers _ e)
      · exact (State.tellTimeout_keepsBuffers _ e).trans (State.post_keepsBuffers _ _)
    · exact r.tellTimeout_keepsBuffers e
  unfold State.timeoutRequest
  split
  · exact (told _).ite _
  · exact .refl s

/-! ### Write elements merged into gather lines (R77) -/

/-- A merged line keeps its line address and has a valid byte. -/
theorem GatherLine.put_valid_ne (l : GatherLine) (a : Nat) (b : Byte) : (l.put a b).valid ≠ 0 := fun h => by
  have := l.put_valid a (a % 32) b (Nat.mod_lt _ (by decide))
  simp [h] at this

/-- A merge where an OPEN line takes the byte changes no other line. -/
theorem Context.mergeByte_into {x : Context} {m : Nat × Byte} (h : ∃ l ∈ x.lines, l.Takes m) (now : BitVec 32) :
    (x.mergeByte now m).lines = x.lines.map fun l => if l.state == .opened && l.addr == lineOf m.1
      then l.put m.1 m.2 else l := by
  have taker : (x.lines.any fun l => l.state == .opened && l.addr == lineOf m.1) = true := by
    simpa [GatherLine.Takes] using h
  simp only [Context.mergeByte, taker, if_true]

/-- A merge where no OPEN line takes the byte opens one at the end. -/
theorem Context.mergeByte_new {x : Context} {m : Nat × Byte} (h : ¬ ∃ l ∈ x.lines, l.Takes m) (now : BitVec 32) :
    ∃ l : GatherLine, l.Takes m ∧ (x.mergeByte now m).lines = x.lines ++ [l.put m.1 m.2] :=
  (x.mergeByte_lines now m).resolve_left fun hl => h hl.1

/-- A merge into an OPEN line keeps the law of the lines. -/
theorem LinesLaw.put {ls : List GatherLine} (h : LinesLaw ls) (m : Nat × Byte) :
    LinesLaw (ls.map fun l => if l.state == .opened && l.addr == lineOf m.1 then l.put m.1 m.2 else l) := by
  obtain ⟨hmem, hpair⟩ := h
  have same (l : GatherLine) : (if l.state == .opened && l.addr == lineOf m.1 then l.put m.1 m.2 else l).state = l.state
      ∧ (if l.state == .opened && l.addr == lineOf m.1 then l.put m.1 m.2 else l).addr = l.addr := by
    split <;> exact ⟨rfl, rfl⟩
  refine ⟨fun l hl => ?_, List.pairwise_map.mpr (hpair.imp fun {a b} hab => ?_)⟩
  · obtain ⟨l₀, hl₀, rfl⟩ := List.mem_map.mp hl
    refine ⟨by rw [(same l₀).2]; exact (hmem l₀ hl₀).1, ?_⟩
    split
    · exact l₀.put_valid_ne _ _
    · exact (hmem l₀ hl₀).2
  · rw [(same a).1, (same b).1, (same a).2, (same b).2]
    exact hab

/-- A new line for an address without an OPEN line keeps the law of the lines. -/
theorem LinesLaw.new {ls : List GatherLine} (h : LinesLaw ls) {m : Nat × Byte} (hno : ¬ ∃ l ∈ ls, l.Takes m)
    {l : GatherLine} (hl : l.Takes m) : LinesLaw (ls ++ [l.put m.1 m.2]) := by
  obtain ⟨hmem, hpair⟩ := h
  refine ⟨fun k hk => ?_, List.pairwise_append.mpr ⟨hpair, List.pairwise_singleton _ _, fun a ha b hb ho _ e => ?_⟩⟩
  · rcases List.mem_append.mp hk with hk | hk
    · exact hmem k hk
    · obtain rfl := List.mem_singleton.mp hk
      refine ⟨?_, l.put_valid_ne _ _⟩
      show l.addr % 32 = 0
      rw [hl.2, lineOf]
      omega
  · obtain rfl := List.mem_singleton.mp hb
    exact hno ⟨a, ha, ho, e.trans hl.2⟩

/-- The lines of the context and the lines that the addresses still need beyond them (R77, R78). -/
def Context.slotsWith (x : Context) (need : List Nat) : Nat :=
  x.lines.length + (need.filter fun a => !x.hasOpen a).length

theorem Context.hasOpen_iff {x : Context} {a : Nat} :
    x.hasOpen a = true ↔ ∃ l ∈ x.lines, l.state = .opened ∧ l.addr = a := by
  simp [Context.hasOpen]

/-- A merge takes no slot but one that its byte needs. -/
theorem Context.mergeByte_slotsWith {x : Context} {m : Nat × Byte} {need : List Nat} (hm : lineOf m.1 ∈ need)
    (now : BitVec 32) : (x.mergeByte now m).slotsWith need ≤ x.slotsWith need := by
  unfold Context.slotsWith
  by_cases h : ∃ l ∈ x.lines, l.Takes m
  · have lines := Context.mergeByte_into h now
    have opens (a : Nat) : (x.mergeByte now m).hasOpen a = x.hasOpen a := by
      rw [Context.hasOpen, lines, List.any_map, Context.hasOpen]
      congr 1
      funext l
      simp only [Function.comp_apply]
      split <;> rfl
    simp only [opens, lines, List.length_map, Nat.le_refl]
  · obtain ⟨l, hl, lines⟩ := Context.mergeByte_new h now
    have own : (x.mergeByte now m).hasOpen (lineOf m.1) = true :=
      Context.hasOpen_iff.mpr ⟨l.put m.1 m.2, by simp [lines], hl.1, hl.2⟩
    have none : x.hasOpen (lineOf m.1) = false :=
      Bool.eq_false_iff.mpr fun e => h (Context.hasOpen_iff.mp e)
    have old (a : Nat) (ha : x.hasOpen a = true) : (x.mergeByte now m).hasOpen a = true := by
      obtain ⟨k, hk, ho⟩ := Context.hasOpen_iff.mp ha
      exact Context.hasOpen_iff.mpr ⟨k, by simp [lines, hk], ho⟩
    have fewer : (need.filter fun a => !(x.mergeByte now m).hasOpen a).length
        < (need.filter fun a => !x.hasOpen a).length := by
      have sub : (need.filter fun a => !(x.mergeByte now m).hasOpen a)
          = (need.filter fun a => !x.hasOpen a).filter fun a => !(x.mergeByte now m).hasOpen a := by
        rw [List.filter_filter]
        refine List.filter_congr fun a _ => ?_
        cases ha : x.hasOpen a with
        | false => simp
        | true => simp [old a ha]
      rw [sub, List.length_filter_lt_length_iff_exists]
      exact ⟨lineOf m.1, List.mem_filter.mpr ⟨hm, by simp [none]⟩, by simp [own]⟩
    rw [lines, List.length_append, List.length_singleton]
    omega

theorem LinesLaw.mergeByte {x : Context} (h : LinesLaw x.lines) (now : BitVec 32) (m : Nat × Byte) :
    LinesLaw (x.mergeByte now m).lines := by
  by_cases ht : ∃ l ∈ x.lines, l.Takes m
  · rw [Context.mergeByte_into ht]; exact h.put m
  · obtain ⟨l, hl, lines⟩ := Context.mergeByte_new ht now
    rw [lines]; exact h.new ht hl

/-- Merging bytes of needed lines keeps the law of the lines and takes no slot beyond those needed. -/
theorem Context.mergeBytes_lines {x : Context} (h : LinesLaw x.lines) {need : List Nat} (now : BitVec 32)
    {bytes : List (Nat × Byte)} (hb : ∀ m ∈ bytes, lineOf m.1 ∈ need) :
    LinesLaw (x.mergeBytes now bytes).lines ∧ (x.mergeBytes now bytes).slotsWith need ≤ x.slotsWith need := by
  induction bytes generalizing x with
  | nil => exact ⟨h, Nat.le_refl _⟩
  | cons m ms ih =>
    obtain ⟨hm, hms⟩ := List.forall_mem_cons.mp hb
    obtain ⟨hlaw, hle⟩ := ih (h.mergeByte now m) hms
    exact ⟨hlaw, hle.trans (Context.mergeByte_slotsWith hm now)⟩

/-- An element that lacks no slot is merged within the capacity (R77, R78). -/
theorem Context.BufferLaw.mergeElement {x : Context} (h : x.BufferLaw) {d : Descriptor} {addr : Nat}
    (hroom : x.lacking (d.linesNeeded addr) = 0) (now : BitVec 32) (host : List Byte) :
    (x.mergeBytes now (d.memoryBytes addr host)).BufferLaw := by
  obtain ⟨hlen, hcount, hlines⟩ := Context.bufferLaw_iff.mp h
  rw [Context.lacking_eq_zero] at hroom
  obtain ⟨hlaw, hle⟩ := Context.mergeBytes_lines hlines (need := d.linesNeeded addr) now fun m hm =>
    (Descriptor.mem_linesNeeded_iff_byte host).mpr ⟨m, hm, rfl⟩
  refine Context.bufferLaw_iff.mpr ⟨by rw [Context.mergeBytes_rest]; exact hlen, ?_, hlaw⟩
  unfold Context.slotsWith at hle
  omega

/-! ### Taken elements (R38) -/

theorem State.markStale_keepsBuffers (s : State) (hit : Span → Bool) : s.KeepsBuffers (s.markStale hit) :=
  s.mapContexts_keepsBuffers fun _ h => h.mapEntries _

theorem State.moveElement_keepsBuffers (s : State) (c : Ctx) (k : Taking)
    (h : (s.context c).dataOrSpace k.d k.pos = true) : s.KeepsBuffers (s.moveElement c k) := by
  unfold State.moveElement
  dsimp only
  split
  · exact State.setContext_keepsBuffers (s.setSlot k.tag _) fun h => h.congr rfl (by simp)
  · rename_i hw
    refine State.KeepsBuffers.trans ?_ (State.markStale_keepsBuffers _ _)
    exact State.setContext_keepsBuffers (s.setSlot k.tag _) fun law =>
      (law.mergeElement ((Context.dataOrSpace_write hw).mp h) _ _).issueSome _

theorem State.advanceTake_keepsBuffers (s : State) (c : Ctx) (k : Taking) : s.KeepsBuffers (s.advanceTake c k) :=
  fun c' h => h.congr (s.advanceTake_lines (k := k) c') (by rw [s.advanceTake_entries]; exact Nat.le_max_right _ _)

theorem State.afterTake_keepsBuffers (s : State) (c : Ctx) : s.KeepsBuffers (s.afterTake c) := by
  have answered := (s.finishHead_keepsBuffers c (s.headReason c)).ite (s.demand c = 0)
  unfold State.afterTake
  dsimp only
  generalize (if s.demand c = 0 then s.finishHead c (s.headReason c) else s) = r at answered
  have cut (why : HostReason) (e : EndCause) : r.KeepsBuffers ((r.cutHead c why).endWalk c e) :=
    ((r.finishHead_keepsBuffers c _).ite _).trans (State.endWalk_keepsBuffers _ c e)
  refine answered.trans ?_
  split
  · exact cut _ _
  · split
    · exact cut _ _
    · exact r.promote_keepsBuffers c

theorem State.elementTake_keepsBuffers (s : State) (c : Ctx) : s.KeepsBuffers (s.elementTake c) := by
  unfold State.elementTake
  split
  · exact s.settle_keepsBuffers
  · rename_i k _
    split
    · rename_i hm
      have room : (s.context c).dataOrSpace k.d k.pos = true := by
        simp only [State.mayTake, Bool.and_eq_true] at hm
        exact hm.2
      exact (((s.moveElement_keepsBuffers c k room).trans (State.advanceTake_keepsBuffers _ c k)).trans
        (State.afterTake_keepsBuffers _ c)).settle
    · exact s.settle_keepsBuffers

/-! ### Host requests, admissions and timers -/

theorem State.issueLines_keepsBuffers (s : State) (c : Ctx) (p : GatherLine → Bool) :
    s.KeepsBuffers (s.issueLines c p) := s.setContext_keepsBuffers fun h => h.issueSome _

theorem State.walkAccess_keepsBuffers (s : State) (t : HostTag) (c : Ctx) : s.KeepsBuffers (s.walkAccess t c) := by
  have queued (q : List HostTag) : s.KeepsBuffers (s.setContext c { s.context c with service := q }) :=
    s.setContext_sameBuffers rfl rfl
  unfold State.walkAccess
  dsimp only
  split
  · exact s.answer_keepsBuffers t _
  · exact s.answer_keepsBuffers t _
  · exact (queued _).trans (State.promote_keepsBuffers _ c)
  · exact queued _

theorem State.passArrival_keepsBuffers (s : State) (r : HostRequest) : s.KeepsBuffers (s.passArrival r) := by
  have issued : s.KeepsBuffers (s.mapContexts fun _ x =>
      { x with lines := x.lines.map fun l => if l.span.overlaps r.span then l.issue else l }) :=
    s.mapContexts_keepsBuffers fun _ h => h.issueSome _
  exact issued.trans (.of_ctx rfl)

theorem State.arrival_keepsBuffers (s : State) (r : HostRequest) : s.KeepsBuffers (s.arrival r) := by
  have accepted : s.KeepsBuffers (s.accept r) := by
    have slot (x : HostSlot) : s.KeepsBuffers (s.setSlot r.tag (some x)) := .of_ctx rfl
    unfold State.accept
    split
    · exact (slot _).trans (State.answer_keepsBuffers _ _ _)
    · split
      · exact (slot _).trans (State.answer_keepsBuffers _ _ _)
      · exact (slot _).trans (State.walkAccess_keepsBuffers _ _ _)
      · exact (slot _).trans (State.passArrival_keepsBuffers _ r)
  unfold State.arrival
  split
  · exact .refl s
  · split
    · exact s.post_keepsBuffers _
    · exact accepted.settle

theorem State.passthroughAdmission_keepsBuffers (s : State) : s.KeepsBuffers s.passthroughAdmission := by
  have admitted (u : HostTag) (x : HostSlot) : s.KeepsBuffers (s.admitPassthrough u x) := by
    have moved : s.KeepsBuffers { s.enqueue 0 (x.req.iqEntry u) with fifo := s.fifo.tail } := .of_ctx rfl
    unfold State.admitPassthrough
    split
    · exact moved
    · exact moved.trans (State.markStale_keepsBuffers _ _)
  unfold State.passthroughAdmission
  split
  · split
    · exact (admitted _ _).settle
    · exact .refl s
  · exact .refl s

theorem State.readAheadAdmission_keepsBuffers (s : State) (c : Ctx) : s.KeepsBuffers (s.readAheadAdmission c) := by
  unfold State.readAheadAdmission
  split
  · split
    · exact (State.KeepsBuffers.trans (.of_ctx rfl) (State.setEntry_keepsBuffers (s.enqueue _ _) c _ _)).settle
    · exact .refl s
  · exact .refl s

/-- A line that leaves takes nothing from the law of the others (R86). -/
theorem State.dropLine_keepsBuffers (s : State) (c : Ctx) (k : Fin 4) : s.KeepsBuffers (s.dropLine c k) := by
  have dropped : s.KeepsBuffers (s.setContext c { s.context c with
      lines := (s.context c).lines.filter fun l => l.slot != k
      issuing := (s.context c).issuing.filter fun j => j != k }) :=
    s.setContext_keepsBuffers fun h => by
      obtain ⟨hlen, hcount, hlines⟩ := Context.bufferLaw_iff.mp h
      exact Context.bufferLaw_iff.mpr
        ⟨hlen, (List.length_filter_le _ _).trans hcount, hlines.sublist List.filter_sublist⟩
  exact dropped.trans (.of_ctx rfl)

theorem State.gatherLineAdmission_keepsBuffers (s : State) (c : Ctx) : s.KeepsBuffers (s.gatherLineAdmission c) := by
  unfold State.gatherLineAdmission
  split
  · split
    · exact (State.KeepsBuffers.trans (.of_ctx rfl) (State.dropLine_keepsBuffers (s.enqueue _ _) c _)).settle
    · exact .refl s
  · exact .refl s

theorem State.expire_keepsBuffers (s : State) (i : Timer) : s.KeepsBuffers (s.expire i) := by
  cases i with
  | head c => exact ((s.finishEarly_keepsBuffers c _).trans (State.decideAfresh_keepsBuffers _)).ite _
  | request m => exact ((s.timeoutRequest_keepsBuffers m).trans (State.decideAfresh_keepsBuffers _)).ite _

theorem State.retime_keepsBuffers (s : State) (new : Settings) : s.KeepsBuffers (s.retime new) := by
  have aged (r : State) (old : Settings) : r.KeepsBuffers (r.ageLines old) :=
    (r.mapContexts_keepsBuffers fun _ h => h.issueSome _).ite _
  have folds (due : List Timer) (r : State) : r.KeepsBuffers (due.foldl State.expire r) := by
    induction due generalizing r with
    | nil => exact .refl r
    | cons i due ih => exact (r.expire_keepsBuffers i).trans (ih _)
  have set : s.KeepsBuffers { s with settings := new, choices := s.choices + 1 } := .of_ctx rfl
  exact (((set.trans (aged _ s.settings)).trans (State.decideAfresh_keepsBuffers _)).trans (folds _ _)).trans
    (State.orderIssuing_keepsBuffers _)

/-! ### The commands of the Management Link -/

theorem State.command_keepsBuffers (s : State) (k : Command) (b : Byte) {owner : List Byte → State → Reply}
    (h : ∀ ps, s.KeepsBuffers (owner ps s).state) : s.KeepsBuffers (s.command k b owner) := by
  unfold State.command
  split
  · exact h _
  · exact .refl s

theorem ownQueueWalk_keepsBuffers (ps : List Byte) (s : State) : s.KeepsBuffers (ownQueueWalk ps s).state := by
  unfold ownQueueWalk
  split
  · dsimp only
    split
    · exact (s.launch_keepsBuffers _ _).settle
    · split
      · exact s.setContext_sameBuffers rfl rfl
      · exact .refl s
  · exact .refl s

theorem ownEndWalk_keepsBuffers (ps : List Byte) (s : State) : s.KeepsBuffers (ownEndWalk ps s).state := by
  unfold ownEndWalk
  split
  · exact .refl s
  · split
    · exact (((s.finishHead_keepsBuffers _ _).ite _).trans (State.endWalk_keepsBuffers _ _ _)).settle
    · exact .refl s

theorem ownAbortWalk_keepsBuffers (ps : List Byte) (s : State) : s.KeepsBuffers (ownAbortWalk ps s).state := by
  unfold ownAbortWalk
  split
  · exact .refl s
  · split
    · exact ((s.abort_keepsBuffers _ _ _).trans (State.launchNext_keepsBuffers _ _)).settle
    · exact .refl s

theorem ownClearFault_keepsBuffers (ps : List Byte) (s : State) : s.KeepsBuffers (ownClearFault ps s).state := by
  unfold ownClearFault
  split
  · exact .refl s
  · split
    · exact ((s.setContext_sameBuffers (by rfl) (by rfl)).trans (State.launchNext_keepsBuffers _ _)).settle
    · exact .refl s

theorem ownFlushLines_keepsBuffers (ps : List Byte) (s : State) : s.KeepsBuffers (ownFlushLines ps s).state := by
  unfold ownFlushLines
  split
  · exact .refl s
  · exact (s.setContext_keepsBuffers fun h => h.issueAll).settle

theorem ownSetPacing_keepsBuffers (ps : List Byte) (s : State) : s.KeepsBuffers (ownSetPacing ps s).state := by
  unfold ownSetPacing
  split
  · split
    · exact .refl s
    · exact (State.promote_keepsBuffers (s.setPacing _ _) _).settle
  · exact .refl s

theorem ownClearPacing_keepsBuffers (ps : List Byte) (s : State) : s.KeepsBuffers (ownClearPacing ps s).state := by
  unfold ownClearPacing
  split
  · exact .refl s
  · exact State.settle_keepsBuffers (s.setPacing _ none)

theorem ownSetTimers_keepsBuffers (ps : List Byte) (s : State) : s.KeepsBuffers (ownSetTimers ps s).state := by
  unfold ownSetTimers
  split
  · exact s.retime_keepsBuffers _
  · exact .refl s

theorem ownSoftReset_keepsBuffers (ps : List Byte) (s : State) : s.KeepsBuffers (ownSoftReset ps s).state := by
  have folds (cs : List Ctx) (r : State) : r.KeepsBuffers (cs.foldl (fun s c => s.abort c false true) r) := by
    induction cs generalizing r with
    | nil => exact .refl r
    | cons c cs ih => exact (r.abort_keepsBuffers c _ _).trans (ih _)
  have armed : s.KeepsBuffers s.abortAll.armAll := (folds allCtx s).trans (.of_ctx rfl)
  show s.KeepsBuffers (s.abortAll.armAll.post _).settle
  exact (armed.trans (State.post_keepsBuffers _ _)).settle

/-! ### Every command -/

theorem Context.reset_bufferLaw : Context.reset.BufferLaw := ⟨by decide, by decide, by simp [Context.reset], .nil⟩

theorem exec_keepsBuffers (i : Instr) (s : State) : ∃ t, exec i s = .next t ∧ s.KeepsBuffers t := by
  have owner (k : Command) (b : Byte) {own : List Byte → State → Reply} (e : ∀ ps, (own ps s).state.ctx = s.ctx) :
      s.KeepsBuffers (s.command k b own) := s.command_keepsBuffers k b fun ps => .of_ctx (e ps)
  cases i with
  | hardwareReset => exact ⟨_, rfl, fun c _ => by rw [s.hardwareReset_context]; exact Context.reset_bufferLaw⟩
  | rstRise => exact ⟨_, rfl, .of_ctx rfl⟩
  | timebaseTick => exact ⟨_, rfl, by split <;> exact .of_ctx rfl⟩
  | hostRequestArrival r => exact ⟨_, rfl, s.arrival_keepsBuffers r⟩
  | hostResponseSent => exact ⟨_, rfl, .of_ctx s.responseSent_ctx⟩
  | elementTake c => exact ⟨_, rfl, s.elementTake_keepsBuffers c⟩
  | drainComplete c => exact ⟨_, rfl, (s.completeDrain_keepsBuffers c).settle.ite _⟩
  | passthroughAdmission => exact ⟨_, rfl, s.passthroughAdmission_keepsBuffers⟩
  | readAheadAdmission c => exact ⟨_, rfl, s.readAheadAdmission_keepsBuffers c⟩
  | gatherLineAdmission c => exact ⟨_, rfl, s.gatherLineAdmission_keepsBuffers c⟩
  | issue => exact ⟨_, rfl, .of_ctx s.issueNext_ctx⟩
  | memoryRequestTaken => exact ⟨_, rfl, .of_ctx rfl⟩
  | memoryResponse m st data => exact ⟨_, rfl, s.response_keepsBuffers m st data⟩
  | memoryTimeout m => exact ⟨_, rfl, (s.timeoutRequest_keepsBuffers m).settle.ite _⟩
  | gatherAgeExpiry c line => exact ⟨_, rfl, (s.issueLines_keepsBuffers c _).settle.ite _⟩
  | paceTimeout c => exact ⟨_, rfl, (s.finishEarly_keepsBuffers c _).settle.ite _⟩
  | frameEnd => exact ⟨_, rfl, .of_ctx rfl⟩
  | unknownCommand => exact ⟨_, rfl, by split <;> exact .of_ctx rfl⟩
  | identify => exact ⟨_, rfl, owner _ _ fun _ => rfl⟩
  | writeDesc b => exact ⟨_, rfl, .of_ctx (s.writeDescEnd_ctx b)⟩
  | readDesc => exact ⟨_, rfl, owner _ _ fun ps => ownReadDesc_ctx ps s⟩
  | clearDesc => exact ⟨_, rfl, owner _ _ fun ps => ownClearDesc_ctx ps s⟩
  | setAperture => exact ⟨_, rfl, owner _ _ fun ps => ownSetAperture_ctx ps s⟩
  | readAperture => exact ⟨_, rfl, owner _ _ fun ps => ownReadAperture_ctx ps s⟩
  | queueWalk => exact ⟨_, rfl, s.command_keepsBuffers _ _ fun ps => ownQueueWalk_keepsBuffers ps s⟩
  | endWalk => exact ⟨_, rfl, s.command_keepsBuffers _ _ fun ps => ownEndWalk_keepsBuffers ps s⟩
  | abortWalk => exact ⟨_, rfl, s.command_keepsBuffers _ _ fun ps => ownAbortWalk_keepsBuffers ps s⟩
  | clearFault => exact ⟨_, rfl, s.command_keepsBuffers _ _ fun ps => ownClearFault_keepsBuffers ps s⟩
  | flushLines => exact ⟨_, rfl, s.command_keepsBuffers _ _ fun ps => ownFlushLines_keepsBuffers ps s⟩
  | readContext => exact ⟨_, rfl, owner _ _ fun ps => ownReadContext_ctx ps s⟩
  | setPacing => exact ⟨_, rfl, s.command_keepsBuffers _ _ fun ps => ownSetPacing_keepsBuffers ps s⟩
  | clearPacing => exact ⟨_, rfl, s.command_keepsBuffers _ _ fun ps => ownClearPacing_keepsBuffers ps s⟩
  | readPacing => exact ⟨_, rfl, owner _ _ fun ps => ownReadPacing_ctx ps s⟩
  | setTimers => exact ⟨_, rfl, s.command_keepsBuffers _ _ fun ps => ownSetTimers_keepsBuffers ps s⟩
  | readTimers => exact ⟨_, rfl, owner _ _ fun _ => rfl⟩
  | popEvent => exact ⟨_, rfl, owner _ _ fun ps => ownPopEvent_ctx ps s⟩
  | peekEvent => exact ⟨_, rfl, owner _ _ fun ps => ownPeekEvent_ctx ps s⟩
  | readEventStatus => exact ⟨_, rfl, owner _ _ fun _ => rfl⟩
  | setAttentionMask => exact ⟨_, rfl, owner _ _ fun ps => ownSetAttentionMask_ctx ps s⟩
  | softReset => exact ⟨_, rfl, s.command_keepsBuffers _ _ fun ps => ownSoftReset_keepsBuffers ps s⟩
  | frameBegin => exact ⟨_, rfl, .of_ctx s.frameBegin_ctx⟩
  | linkByteComplete b => exact ⟨_, rfl, .of_ctx (s.linkByte_ctx b)⟩

/-- Settles O59: a step is a command on the state with the queue's rest, or idles. -/
theorem everyStepKeepsBufferLaw : Obligations.EveryStepKeepsBufferLaw := by
  intro s t h e
  unfold step at e
  split at e
  · obtain rfl := Host.Outcome.next.inj e; exact h
  · rename_i i rest _
    obtain ⟨u, hu, keeps⟩ := exec_keepsBuffers i { s with pending := rest }
    obtain rfl := Host.Outcome.next.inj (hu.symm.trans e)
    exact fun c => keeps c (h c)

end Sys2Proof.Machine
end

section
/-! The arbiter, and the admissions of passthrough requests and read-ahead candidates (O30, O31, O32). -/

namespace Sys2Proof

open Sys2Proof.Machine

/-! ### The request of a passthrough transaction (R113, R126) -/

section Request

variable (r : HostRequest) (i : Nat)

theorem HostRequest.busData_length : r.busData.length = 4 * r.beats := by simp [HostRequest.busData]

theorem HostRequest.busStrobes_length : r.busStrobes.length = 4 * r.beats := by simp [HostRequest.busStrobes]

theorem HostRequest.busStrobes_getElem? (hi : i < 4 * r.beats) : r.busStrobes[i]?
    = some (r.strobes.getD i false && decide (r.offset ≤ i ∧ i < r.offset + r.length)) := by
  simp [HostRequest.busStrobes, hi, Bool.and_assoc]

theorem HostRequest.busData_getElem? (hi : i < 4 * r.beats) (hd : i < r.data.length) : r.busData[i]? = r.data[i]? := by
  simp [HostRequest.busData, hi, hd]

/-- A request that carries a byte for each byte of its beats puts them on the bus as they are. -/
theorem HostRequest.busData_eq (h : r.data.length = 4 * r.beats) : r.busData = r.data := by
  refine List.ext_getElem? fun i => ?_
  by_cases hi : i < 4 * r.beats
  · exact r.busData_getElem? i hi (h ▸ hi)
  · rw [List.getElem?_eq_none (by rw [r.busData_length]; omega), List.getElem?_eq_none (by omega)]

end Request

end Sys2Proof

namespace Sys2Proof.Machine

open Sys2Proof

/-! ### The cycle of the 17 sources (R136) -/

@[simp] theorem sourceAt_passthrough : sourceAt 0 = .passthrough := rfl

@[simp] theorem sourceAt_readAhead (c : Ctx) : sourceAt (Fin.ofNat 17 (1 + 2 * c.val)) = .readAhead c := by
  revert c; decide

@[simp] theorem sourceAt_gather (c : Ctx) : sourceAt (Fin.ofNat 17 (2 + 2 * c.val)) = .gather c := by
  revert c; decide

/-- The position that the cycle reaches from `p` after as many steps as `q` lies ahead of it is `q`. -/
theorem cycle_reaches (p q : Fin 17) : Fin.ofNat 17 (p.val + (q - p).val) = q := by
  apply Fin.ext
  rw [Fin.val_ofNat, Fin.sub_def]
  dsimp only
  omega

/-- Within one turn of the cycle the steps to a position are the distance to it. -/
theorem cycle_distance (p : Fin 17) {i : Nat} (hi : i < 17) : (Fin.ofNat 17 (p.val + i) - p).val = i := by
  rw [Fin.sub_def, Fin.val_ofNat]
  dsimp only
  omega

/-- The first in the cycle from `p` onward that passes a test. -/
theorem find?_cycle_eq_some {p q : Fin 17} {f : Fin 17 → Bool} :
    ((List.range 17).map fun i => Fin.ofNat 17 (p.val + i)).find? f = some q
      ↔ f q = true ∧ ∀ r : Fin 17, (r - p).val < (q - p).val → f r = false := by
  rw [List.find?_map, Option.map_eq_some_iff]
  simp only [List.find?_range_eq_some, List.mem_range, Function.comp_apply, Bool.not_eq_true']
  constructor
  · rintro ⟨i, ⟨hq, hi, hfirst⟩, rfl⟩
    refine ⟨hq, fun r hr => ?_⟩
    rw [cycle_distance p hi] at hr
    rw [← cycle_reaches p r]
    exact hfirst _ hr
  · rintro ⟨hq, hfirst⟩
    refine ⟨(q - p).val, ⟨by rwa [cycle_reaches], (q - p).isLt, fun j hj => hfirst _ ?_⟩, cycle_reaches p q⟩
    rwa [cycle_distance p (hj.trans (q - p).isLt)]

/-- The arbiter's rule (R136). -/
theorem State.nextAdmission_eq_some {s : State} {p : Fin 17} : s.nextAdmission = some p ↔
    s.iq.length < 16 ∧ s.sourceReady (sourceAt p) = true
      ∧ ∀ q : Fin 17, (q - s.pointer).val < (p - s.pointer).val → s.sourceReady (sourceAt q) = false := by
  unfold State.nextAdmission
  split
  · rename_i h
    simp only [find?_cycle_eq_some, h, true_and]
  · rename_i h
    simp [h]

/-! ### Eligible candidates (R60, R61, R83 to R85, R125) -/

theorem State.passCandidate_eq_some {s : State} {t : HostTag} {x : HostSlot} :
    s.passCandidate = some (t, x) ↔ ∃ e rest, s.fifo = e :: rest ∧ e.waitSet = [] ∧ e.tag = t ∧ s.slot t = some x := by
  unfold State.passCandidate
  cases s.fifo with
  | nil => simp
  | cons e rest =>
    by_cases h : e.waitSet = []
    · simp only [h, List.isEmpty_nil, if_true, Option.map_eq_some_iff, Prod.mk.injEq, List.cons.injEq]
      constructor
      · rintro ⟨y, hy, rfl, rfl⟩
        exact ⟨e, rest, ⟨rfl, rfl⟩, h, rfl, hy⟩
      · rintro ⟨f, rest', ⟨rfl, rfl⟩, -, rfl, hx⟩
        exact ⟨x, hx, rfl, rfl⟩
    · simp only [List.isEmpty_iff, h, if_false, List.cons.injEq, reduceCtorEq, false_iff]
      rintro ⟨f, rest', ⟨rfl, rfl⟩, hw, -⟩
      exact h hw

theorem State.passthrough_ready_iff {s : State} : s.sourceReady .passthrough = true ↔
    ∃ e rest x, s.fifo = e :: rest ∧ e.waitSet = [] ∧ s.slot e.tag = some x := by
  rw [State.sourceReady, Option.isSome_iff_exists]
  constructor
  · rintro ⟨⟨t, x⟩, h⟩
    obtain ⟨e, rest, hf, hw, rfl, hx⟩ := State.passCandidate_eq_some.mp h
    exact ⟨e, rest, x, hf, hw, hx⟩
  · rintro ⟨e, rest, x, hf, hw, hx⟩
    exact ⟨(e.tag, x), State.passCandidate_eq_some.mpr ⟨e, rest, hf, hw, rfl, hx⟩⟩

theorem State.meetsLine_eq_false {s : State} {p : Span} :
    s.meetsLine p = false ↔ ∀ c, ∀ l ∈ (s.context c).lines, l.span.overlaps p = false := by
  simp [State.meetsLine, mem_allCtx]

theorem Context.candidate_eq_some {x : Context} {e : Entry} : x.candidate = some e ↔
    e.state = .pending ∧ ∃ older younger, x.entries = older ++ e :: younger ∧ ∀ o ∈ older, o.state ≠ .pending := by
  simp [Context.candidate, List.find?_eq_some_iff_append]

theorem State.readCandidate_eq_some {s : State} {c : Ctx} {e : Entry} : s.readCandidate c = some e ↔
    (s.context c).candidate = some e ∧ s.meetsLine e.span = false := by
  simp [State.readCandidate, Option.filter_eq_some_iff]

theorem State.readAhead_ready_iff {s : State} {c : Ctx} : s.sourceReady (.readAhead c) = true ↔
    ∃ older e younger, (s.context c).entries = older ++ e :: younger ∧ (∀ o ∈ older, o.state ≠ .pending)
      ∧ e.state = .pending ∧ ∀ c', ∀ l ∈ (s.context c').lines, l.span.overlaps e.span = false := by
  rw [State.sourceReady, Option.isSome_iff_exists]
  simp only [State.readCandidate_eq_some, Context.candidate_eq_some, State.meetsLine_eq_false]
  constructor
  · rintro ⟨e, ⟨hp, older, younger, he, ho⟩, hl⟩
    exact ⟨older, e, younger, he, ho, hp, hl⟩
  · rintro ⟨older, e, younger, he, ho, hp, hl⟩
    exact ⟨e, ⟨hp, older, younger, he, ho⟩, hl⟩

/-- The line that stands first in the issuing order is the oldest line in the slot that the order names. -/
theorem Context.firstIssuing_eq_some {x : Context} {l : GatherLine} : x.firstIssuing = some l ↔
    ∃ k rest before after, x.issuing = k :: rest ∧ x.lines = before ++ l :: after
      ∧ (∀ b ∈ before, b.slot ≠ k) ∧ l.slot = k := by
  unfold Context.firstIssuing
  cases x.issuing with
  | nil => simp
  | cons k rest =>
    simp only [List.find?_eq_some_iff_append, beq_iff_eq, Bool.not_eq_true', beq_eq_false_iff_ne, List.cons.injEq]
    constructor
    · rintro ⟨hk, before, after, hl, hb⟩
      exact ⟨k, rest, before, after, ⟨rfl, rfl⟩, hl, hb, hk⟩
    · rintro ⟨k', rest', before, after, ⟨rfl, rfl⟩, hl, hb, hk⟩
      exact ⟨hk, before, after, hl, hb⟩

theorem State.heldBack_eq_false {s : State} {c : Ctx} {l : GatherLine} : s.heldBack c l = false ↔
    ∀ e ∈ s.fifo, ∀ x, s.slot e.tag = some x → x.req.kind = .write → x.req.span.overlaps l.span = true →
      (c, l.slot) ∈ e.waitSet := by
  unfold State.heldBack
  rw [List.any_eq_false]
  refine forall₂_congr fun e _ => ?_
  cases s.slot e.tag with
  | none => simp
  | some x => simp

theorem State.gather_ready_iff {s : State} {c : Ctx} : s.sourceReady (.gather c) = true ↔
    ∃ k rest before l after, (s.context c).issuing = k :: rest
      ∧ (s.context c).lines = before ++ l :: after ∧ (∀ b ∈ before, b.slot ≠ k) ∧ l.slot = k ∧ l.state = .issuing
      ∧ ∀ e ∈ s.fifo, ∀ x, s.slot e.tag = some x → x.req.kind = .write →
          x.req.span.overlaps l.span = true → (c, k) ∈ e.waitSet := by
  rw [State.sourceReady, Option.isSome_iff_exists]
  simp only [State.gatherCandidate, Option.filter_eq_some_iff, Context.firstIssuing_eq_some, Bool.and_eq_true,
    beq_iff_eq, Bool.not_eq_true', State.heldBack_eq_false]
  constructor
  · rintro ⟨l, ⟨k, rest, before, after, hi, hl, hb, rfl⟩, hs, hw⟩
    exact ⟨l.slot, rest, before, l, after, hi, hl, hb, rfl, hs, hw⟩
  · rintro ⟨k, rest, before, l, after, hi, hl, hb, rfl, hs, hw⟩
    exact ⟨l, ⟨l.slot, rest, before, after, hi, hl, hb, rfl⟩, hs, hw⟩

/-- Settles O30: the arbiter's rule, and the candidates of the sources at the three kinds of position. -/
theorem arbiterTakesFirstReadySource : Obligations.ArbiterTakesFirstReadySource := by
  refine ⟨fun s p => State.nextAdmission_eq_some, fun s => ⟨?_, fun c => ⟨?_, ?_⟩⟩⟩
  · rw [sourceAt_passthrough]; exact State.passthrough_ready_iff
  · rw [sourceAt_readAhead]; exact State.readAhead_ready_iff
  · rw [sourceAt_gather]; exact State.gather_ready_iff

/-! ### Admissions (R62, R126, R137) -/

theorem State.passthroughAdmission_refused {s : State} (h : s.nextAdmission ≠ some 0) : s.passthroughAdmission = s := by
  simp [State.passthroughAdmission, State.admitsNext, Source.position, h]

theorem State.passthroughAdmission_admits {s : State} {t : HostTag} {x : HostSlot} (h : s.nextAdmission = some 0)
    (hc : s.passCandidate = some (t, x)) : s.passthroughAdmission = (s.admitPassthrough t x).settle := by
  simp [State.passthroughAdmission, State.admitsNext, Source.position, h, hc]

/-- The admission is the FIFO's exactly where its oldest request is ready and the cycle reaches it first. -/
theorem State.passthrough_admitted {s : State} {e : FifoEntry} {rest : List FifoEntry} {x : HostSlot}
    (hf : s.fifo = e :: rest) (hx : s.slot e.tag = some x)
    (h : s.nextAdmission = some 0 ∨ (s.iq.length < 16 ∧ s.pointer = 0 ∧ e.waitSet = [])) :
    s.nextAdmission = some 0 ∧ s.passCandidate = some (e.tag, x) := by
  have ready (hw : e.waitSet = []) : s.passCandidate = some (e.tag, x) :=
    State.passCandidate_eq_some.mpr ⟨e, rest, hf, hw, rfl, hx⟩
  rcases h with h | ⟨hroom, hp, hw⟩
  · obtain ⟨-, hready, -⟩ := State.nextAdmission_eq_some.mp h
    obtain ⟨e', rest', x', hf', hw, -⟩ := State.passthrough_ready_iff.mp hready
    obtain ⟨rfl, -⟩ := List.cons.inj (hf.symm.trans hf')
    exact ⟨h, ready hw⟩
  · refine ⟨State.nextAdmission_eq_some.mpr ⟨hroom, ?_, fun q hq => ?_⟩, ready hw⟩
    · exact State.passthrough_ready_iff.mpr ⟨e, rest, x, hf, hw, hx⟩
    · rw [hp] at hq; simp at hq

/-- What an admission does to the FIFO, the Issue Queue and the read-ahead entries, for a read and for a write alike:
a read marks no entry stale (R64, R126). -/
theorem State.admitPassthrough_eq (s : State) (t : HostTag) (x : HostSlot) : s.admitPassthrough t x
    = State.mapContexts { s with iq := s.iq ++ [x.req.iqEntry t], fifo := s.fifo.tail, pointer := 1 } fun _ y =>
      { y with entries := y.entries.map fun g =>
          if x.req.kind = .write ∧ g.span.overlaps x.req.span = true then { g with state := g.state.stale }
          else g } := by
  unfold State.admitPassthrough
  cases hk : x.req.kind with
  | read =>
    simp only [reduceCtorEq, false_and, if_false, List.map_id']
    refine Eq.trans ?_ (congrArg (fun v => { s with
      iq := s.iq ++ [x.req.iqEntry t], fifo := s.fifo.tail, pointer := 1, ctx := v })
      (State.ctx_ext fun c => (State.context_mapContexts s (fun _ y => y) c).symm))
    rfl
  | write =>
    simp only [true_and]
    rfl

/-- Settles O31: the admission is the FIFO's by the arbiter's rule, and the request on the bus is the master's. -/
theorem passthroughAdmissionJoinsIssueQueue : Obligations.PassthroughAdmissionJoinsIssueQueue := by
  refine ⟨fun s e rest x hf hx h => ?_, fun s => ⟨_, rfl⟩, fun s h => ?_⟩
  · obtain ⟨hnext, hc⟩ := State.passthrough_admitted hf hx h
    have hexec : exec .passthroughAdmission s = .next (s.admitPassthrough e.tag x).settle :=
      congrArg _ (State.passthroughAdmission_admits hnext hc)
    refine ⟨_, x.req.iqEntry e.tag, hexec, ?_, rfl, rfl, rfl, rfl, rfl, rfl, fun hk => ?_, fun hk => ?_⟩
    · rw [State.admitPassthrough_eq, hf]
      exact State.settle_resettled _
    · simp [HostRequest.iqEntry, hk]
    · have hs : (x.req.iqEntry e.tag).strobes = x.req.busStrobes := by simp [HostRequest.iqEntry, hk]
      have hd : (x.req.iqEntry e.tag).data = x.req.busData := by simp [HostRequest.iqEntry, hk]
      rw [hs, hd]
      exact ⟨x.req.busStrobes_length, x.req.busData_length, x.req.busStrobes_getElem?, x.req.busData_getElem?,
        x.req.busData_eq⟩
  · exact congrArg _ (State.passthroughAdmission_refused h)

theorem State.readAheadAdmission_admits {s : State} {c : Ctx} {e : Entry}
    (h : s.nextAdmission = some (Source.readAhead c).position) (hc : s.readCandidate c = some e) :
    s.readAheadAdmission c = (s.admitRead c e).settle := by
  simp [State.readAheadAdmission, State.admitsNext, h, hc]

theorem position_after_readAhead (c : Ctx) : (Source.readAhead c).position + 1 = Fin.ofNat 17 (2 + 2 * c.val) := by
  revert c; decide

/-- Settles O32: the candidate is PENDING in its queue, and its admission makes the request and names it REQUESTED. -/
theorem readAheadAdmissionRequestsEntry : Obligations.ReadAheadAdmissionRequestsEntry := by
  intro s c e hnext hc
  obtain ⟨hcand, -⟩ := State.readCandidate_eq_some.mp hc
  obtain ⟨hpending, older, younger, hentries, -⟩ := Context.candidate_eq_some.mp hcand
  have hexec : exec (.readAheadAdmission c) s = .next (s.admitRead c e).settle :=
    congrArg Host.Outcome.next (State.readAheadAdmission_admits hnext hc)
  refine ⟨_, hexec, hpending, by simp [hentries], ?_⟩
  have admitted := (s.admitRead c e).settle_resettled
  rw [State.admitRead, State.enqueue, position_after_readAhead] at admitted ⊢
  exact admitted

end Sys2Proof.Machine
end

section
/-! Memory's answer to a read-ahead request (O37), and requests that time out (O38). -/

namespace Sys2Proof.Machine

open Sys2Proof

/-! ### The entry that a read request names (R62, R65, R66) -/

section Outstanding

variable {s : State} {c : Ctx} {q : Nat} {e : Entry} (he : e ∈ (s.context c).entries) (hq : e.seq = q)
  (hone : ∀ g ∈ (s.context c).entries, g.seq = q → g = e) (hst : e.state = .requested ∨ e.state = .requestedStale)
include he hq hone hst

theorem State.outstanding_eq : s.outstanding c q = some e := by
  have mine : (e.seq == q && (e.state == .requested || e.state == .requestedStale)) = true := by simpa [hq] using hst
  cases h : s.outstanding c q with
  | none => exact absurd mine (List.find?_eq_none.mp h e he)
  | some g =>
    have seq := List.find?_some h
    simp only [Bool.and_eq_true, beq_iff_eq] at seq
    rw [hone g (List.mem_of_find?_eq_some h) seq.1]

/-- A REQUESTED entry takes the element's lanes (R65). -/
theorem State.readOkay_requested (h : e.state = .requested) (data : List Byte) : s.readOkay c q data
    = s.setEntry c q (.filled (e.fetched (((s.context c).snapshot.map Descriptor.memWidth).getD 0) data)) := by
  simp [State.readOkay, State.outstanding_eq he hq hone hst, h]

/-- A REQUESTED_STALE entry is fetched again (R65). -/
theorem State.readOkay_stale (h : e.state = .requestedStale) (data : List Byte) :
    s.readOkay c q data = s.setEntry c q .pending := by
  simp [State.readOkay, State.outstanding_eq he hq hone hst, h]

/-- A failed read poisons its entry (R66). -/
theorem State.readFailed_outstanding (n : BitVec 16) (r : Reason) : s.readFailed c n q r
    = (s.setEntry c q .poisoned).post {
        kind := .readFault, timestamp := s.timebase, context := some c, serial := some n, address := some e.addr,
        reason := some r, value := some e.ordinal } := by
  simp only [State.readFailed, State.outstanding_eq he hq hone hst]
  rfl

end Outstanding

/-- A fetched lane within the element's width holds memory's byte, another one 0 (R55). -/
theorem Entry.fetched_get (e : Entry) (w : Nat) (data : List Byte) (j : Fin 4) : (e.fetched w data).get j
    = if j.val < w then data.getD (e.addr - e.span.start + j.val) (Config.absentByte (e.addr - e.span.start + j.val))
      else 0 := by
  simp [Entry.fetched, Vector.get_eq_getElem]

section Deliver

variable {s : State} {a : TrackEntry} {c : Ctx} {n : BitVec 16} {q : Nat} (ho : a.origin = .readAhead c n q)
include ho

theorem State.deliver_read_detached (hd : a.detached = true) (st : MemStatus) (data : List Byte) :
    s.deliver a st data = s := by
  cases st <;> simp [State.deliver, ho, hd]

theorem State.deliver_read_okay (hd : a.detached = false) (data : List Byte) :
    s.deliver a .okay data = s.readOkay c q data := by simp [State.deliver, ho, hd]

theorem State.deliver_read_fault (hd : a.detached = false) (data : List Byte) :
    s.deliver a .fault data = s.readFailed c n q .memory := by simp [State.deliver, ho, hd]

end Deliver

/-- Settles O37: the answer goes to the one entry that its request names. -/
theorem readAnswerChangesItsEntry : Obligations.ReadAnswerChangesItsEntry := by
  intro s m a c n q e d data hlow hm hf ho hd he hq hone hst s₁ set
  have hexec (st : MemStatus) := exec_response hlow hm hf st data
  refine ⟨fun hdet st => ⟨_, hexec st, ?_⟩, fun hatt => ⟨fun hr => ?_, fun hr => ⟨_, hexec .okay, ?_⟩,
    _, hexec .fault, ?_⟩⟩
  · rw [State.deliver_read_detached ho hdet]
    exact State.settle_resettled _
  · refine ⟨_, e.fetched d.memWidth data, hexec .okay, ?_, fun j => ⟨fun hj => ?_, fun b hj hb => ?_⟩⟩
    · rw [State.deliver_read_okay ho hatt, State.readOkay_requested (s := s₁) he hq hone hst hr]
      have width : ((s₁.context c).snapshot.map Descriptor.memWidth).getD 0 = d.memWidth := by
        show ((s.context c).snapshot.map Descriptor.memWidth).getD 0 = _
        rw [hd]; rfl
      rw [width]
      exact State.settle_resettled _
    · rw [e.fetched_get, if_neg (Nat.not_lt.mpr hj)]
    · rw [e.fetched_get, if_pos hj, List.getD_eq_getElem?_getD, hb]; rfl
  · rw [State.deliver_read_okay ho hatt, State.readOkay_stale (s := s₁) he hq hone hst hr]
    exact State.settle_resettled _
  · rw [State.deliver_read_fault ho hatt, State.readFailed_outstanding (s := s₁) he hq hone hst]
    exact State.settle_resettled _

/-! ### A request that has run out of time (R145, R146) -/

theorem State.requestTimedOut_iff {s : State} {m : MemTag} {e : TrackEntry} (hm : s.track m = some e)
    (hf : e.state = .inFlight) : s.requestTimedOut m = true ↔ s.settings.memTimeoutUs ≠ 0
      ∧ s.settings.memTimeoutUs < (s.timebase.toNat + 2 ^ 32 - e.sent.toNat) % 2 ^ 32 := by
  simp only [State.requestTimedOut, hm, hf, State.since_eq, Option.any_some, Bool.and_eq_true, decide_eq_true_eq,
    beq_self_eq_true, true_and]

theorem exec_memoryTimeout_early {s : State} {m : MemTag} (h : s.requestTimedOut m = false) :
    exec (.memoryTimeout m) s = .next s := by
  show Host.Outcome.next _ = _
  rw [h]
  rfl

theorem exec_memoryTimeout_due {s : State} {m : MemTag} {e : TrackEntry} (hm : s.track m = some e)
    (h : s.requestTimedOut m = true) : exec (.memoryTimeout m) s = .next (s.quarantine m e).settle := by
  show Host.Outcome.next _ = _
  simp only [h, if_true, State.timeoutRequest, hm]

/-- All 32 tags are QUARANTINED. -/
theorem State.quarantined_eq_all {s : State} :
    s.quarantined = 32 ↔ ∀ u, (s.track u).map TrackEntry.state = some .quarantined := by
  have total : allTags.length = 32 := by simp [allTags]
  rw [State.quarantined, ← total, List.countP_eq_length]
  refine ⟨fun h u => ?_, fun h u _ => ?_⟩
  · have := h u (List.mem_finRange u)
    cases ht : s.track u with
    | none => simp [ht] at this
    | some y => simpa [ht] using this
  · have := h u
    cases ht : s.track u with
    | none => simp [ht] at this
    | some y => simpa [ht] using this

/-- The state in which the request on tag `m` is quarantined and MEMORY_TIMEOUT posted. -/
def State.reportTimeout (s : State) (m : MemTag) (e : TrackEntry) : State :=
  (s.setTrack m (some { e with state := .quarantined })).post (s.trackRecord .memoryTimeout m e)

section ReportTimeout

variable (s : State) (m : MemTag) (e : TrackEntry)

@[simp] theorem State.reportTimeout_context (c : Ctx) : (s.reportTimeout m e).context c = s.context c := by
  simp [State.reportTimeout]

@[simp] theorem State.reportTimeout_timebase : (s.reportTimeout m e).timebase = s.timebase := by
  simp [State.reportTimeout]

@[simp] theorem State.reportTimeout_slot (u : HostTag) : (s.reportTimeout m e).slot u = s.slot u := by
  simp [State.reportTimeout]

theorem State.reportTimeout_track (u : MemTag) : (s.reportTimeout m e).track u
    = if m = u then some { e with state := .quarantined } else s.track u := by
  simp [State.reportTimeout, State.track_setTrack]

/-- The tracker is blocked unless some other tag is free or IN_FLIGHT (R146). -/
theorem State.reportTimeout_blocked_iff : (s.reportTimeout m e).quarantined = 32
    ↔ ¬ ∃ u, u ≠ m ∧ ∀ y, s.track u = some y → y.state = .inFlight := by
  simp only [State.quarantined_eq_all, State.reportTimeout_track, not_exists, not_and]
  refine forall_congr' fun u => ?_
  by_cases h : m = u
  · simp [h]
  · cases ht : s.track u with
    | none => simp [h, Ne.symm h]
    | some y => cases hs : y.state <;> simp [h, Ne.symm h, hs]

end ReportTimeout

theorem State.quarantine_unblocked {s : State} {m : MemTag} {e : TrackEntry}
    (h : (s.reportTimeout m e).quarantined ≠ 32) : s.quarantine m e = (s.reportTimeout m e).tellTimeout e :=
  if_neg h

/-- The state in which the free place of TRACKER_BLOCKED has been chosen (log entry 9). -/
def State.choosePlace (s : State) (m : MemTag) (e : TrackEntry) : State :=
  { s.reportTimeout m e with choices := s.choices + 1 }

theorem State.quarantine_blocked {s : State} {m : MemTag} {e : TrackEntry}
    (h : (s.reportTimeout m e).quarantined = 32) :
    s.quarantine m e = ((s.choosePlace m e).post (s.record .trackerBlocked)).tellTimeout e
    ∨ s.quarantine m e = ((s.choosePlace m e).tellTimeout e).post (s.record .trackerBlocked) := by
  have free : s.quarantine m e = if Config.blockedFirst s.choices
      then ((s.choosePlace m e).post (s.record .trackerBlocked)).tellTimeout e
      else ((s.choosePlace m e).tellTimeout e).post (s.record .trackerBlocked) := if_pos h
  rw [free]
  split
  · exact .inl rfl
  · exact .inr rfl

/-! ### A failed line write of a running walk (R90, R93, R145) -/

/-- The WRITE_FAULT record of a failed line write that discards `v` lines (R90, R168). -/
def State.writeFaultRecord (s : State) (c : Ctx) (n : BitVec 16) (l : Nat) (r : Reason) (v : Nat) : EventRecord where
  kind := .writeFault
  timestamp := s.timebase
  context := some c
  serial := some n
  address := some l
  reason := some r
  value := some v

/-- The lines of `c` are discarded, its writes detached, and it is faulted (R90). -/
def State.faultLines (s : State) (c : Ctx) (why : FaultReason) : State :=
  ((s.discardLines c).detach (Origin.isWriteOf c) false).faultContext c why

section LineFailed

variable (s : State) (c : Ctx) (n : BitVec 16) (l : Nat) (why : FaultReason) (r : Reason)

theorem State.lineFailed_detached : s.lineFailed c n l false why r = s.post (s.writeFaultRecord c n l r 0) := rfl

theorem State.lineFailed_attached : s.lineFailed c n l true why r
    = (s.post (s.writeFaultRecord c n l r (s.context c).lines.length)).faultLines c why := rfl

/-- Discarding lines and detaching writes is beyond what a fault can see. -/
theorem State.discardDetach_sameFaulted :
    State.SameFaulted c s ((s.discardLines c).detach (Origin.isWriteOf c) false) := by
  refine ⟨rfl, fun _ => rfl, fun f hne => ?_, ?_, ?_, fun _ => rfl, rfl, rfl⟩
  · rw [State.detach_context, State.discardLines_context, if_neg (Ne.symm hne)]
  · simp [State.discardLines_context]
  · simp [State.discardLines_context]

theorem State.faultLines_faultedBy : s.FaultedBy (s.faultLines c why) c why :=
  (State.faultContext_faultedBy _ c why).source (s.discardDetach_sameFaulted c)

/-- A faulted context keeps no line, no attached write and no place in a wait set (R90, R93). -/
theorem State.faultLines_settled : ((s.faultLines c why).settle.context c).lines = []
    ∧ ((s.faultLines c why).settle.context c).issuing = [] ∧ (s.faultLines c why).settle.attachedWrites c = 0
    ∧ ∀ g ∈ (s.faultLines c why).settle.fifo, ∀ w ∈ g.waitSet, w.1 ≠ c := by
  have k := (s.faultLines c why).settle_resettled
  obtain ⟨hlines, hissuing⟩ := State.faultContext_context ((s.discardLines c).detach (Origin.isWriteOf c) false) c why
  have hnone : ((s.faultLines c why).context c).lines = [] := hlines.trans (by simp [State.discardLines_context])
  obtain ⟨tlines, tissuing⟩ := State.settle_noLines hnone
  refine ⟨tlines, tissuing.trans (hissuing.trans (by simp [State.discardLines_context])), ?_, fun g hg => ?_⟩
  · rw [← (s.discardLines c).attachedWrites_detach c]
    exact State.attachedWrites_congr (k.iq.trans (State.faultContext_iq _ c why))
      (fun u => (k.track u).trans (State.faultContext_track _ c why u)) c
  · rw [k.fifo, State.faultLines, State.faultContext_fifo] at hg
    exact s.discardLines_fifo c g hg

/-- A fault moves no tag of the tracker to another state. -/
theorem State.faultLines_trackState (u : MemTag) :
    ((s.faultLines c why).track u).map TrackEntry.state = (s.track u).map TrackEntry.state := by
  rw [State.faultLines, State.faultContext_track, State.detach_track]
  show ((s.track u).map _).map TrackEntry.state = _
  cases s.track u with
  | none => rfl
  | some y => simp only [Option.map_some]; split <;> rfl

theorem State.faultLines_events : s.events <+: (s.faultLines c why).events :=
  (State.faultContext_upholds ((s.discardLines c).detach (Origin.isWriteOf c) false) c why).events

end LineFailed

/-! ### What telling the origin leaves (R145) -/

section TellTimeout

variable {s : State} {e : TrackEntry}

theorem State.tellTimeout_host {h : HostTag} (ho : e.origin = .host h) :
    s.tellTimeout e = s.answer h (some .memoryTimeout) := by simp [State.tellTimeout, ho]

theorem State.tellTimeout_read {c : Ctx} {n : BitVec 16} {q : Nat} (ho : e.origin = .readAhead c n q) :
    s.tellTimeout e = if e.detached then s else s.readFailed c n q .memoryTimeout := by simp [State.tellTimeout, ho]

theorem State.tellTimeout_line {c : Ctx} {n : BitVec 16} {l : Nat} (ho : e.origin = .gather c n l) :
    s.tellTimeout e = s.lineFailed c n l (!e.detached) .memoryTimeout .memoryTimeout := by
  simp [State.tellTimeout, ho]

/-- Telling an origin of a failure posts records and moves no tag to another state. -/
structure State.Tells (s t : State) : Prop where
  events : s.events <+: t.events
  track : ∀ u, (t.track u).map TrackEntry.state = (s.track u).map TrackEntry.state

theorem State.Tells.refl (s : State) : s.Tells s := ⟨List.prefix_refl _, fun _ => rfl⟩

theorem State.Tells.trans {t r : State} (h : s.Tells t) (k : t.Tells r) : s.Tells r :=
  ⟨h.events.trans k.events, fun u => (k.track u).trans (h.track u)⟩

theorem State.post_tells (s : State) (x : EventRecord) : s.Tells (s.post x) :=
  ⟨s.post_events x, fun u => by rw [s.post_track]⟩

theorem State.readFailed_tells (s : State) (c : Ctx) (n : BitVec 16) (q : Nat) (r : Reason) :
    s.Tells (s.readFailed c n q r) := by
  unfold State.readFailed
  split
  · exact .refl s
  · exact State.Tells.trans (t := s.setEntry c q .poisoned) ⟨List.prefix_refl _, fun _ => rfl⟩
      (State.post_tells (s.setEntry c q .poisoned) _)

theorem State.lineFailed_tells (s : State) (c : Ctx) (n : BitVec 16) (l : Nat) (b : Bool) (why : FaultReason)
    (r : Reason) : s.Tells (s.lineFailed c n l b why r) := by
  cases b with
  | false => exact s.post_tells _
  | true =>
    rw [State.lineFailed_attached]
    exact (s.post_tells _).trans ⟨State.faultLines_events _ c why, State.faultLines_trackState _ c why⟩

theorem State.tellTimeout_tells (s : State) (e : TrackEntry) : s.Tells (s.tellTimeout e) := by
  cases ho : e.origin with
  | host h =>
    rw [State.tellTimeout_host ho]
    exact ⟨(s.answer_upholds h _).events, fun u => by rw [(s.answer_serves h _).track]⟩
  | readAhead c n q =>
    rw [State.tellTimeout_read ho]
    split
    · exact .refl s
    · exact s.readFailed_tells c n q _
  | gather c n l =>
    rw [State.tellTimeout_line ho]
    exact s.lineFailed_tells c n l _ _ _

end TellTimeout

/-! ### The origins of a request that is quarantined alone (R66, R73, R90, R91, R145) -/

/-- The MEMORY_TIMEOUT record before its origin is named (R145, R168). -/
def State.timeoutRecord (s : State) (m : MemTag) (e : TrackEntry) : EventRecord where
  kind := .memoryTimeout
  timestamp := s.timebase
  value := some m.val
  address := some e.span.start

section Told

variable {s : State} {m : MemTag} {e : TrackEntry}

theorem State.reportTimeout_host {h : HostTag} (ho : e.origin = .host h) : s.reportTimeout m e
    = (s.setTrack m (some { e with state := .quarantined })).post { s.timeoutRecord m e with tag := some h } := by
  simp [State.reportTimeout, State.trackRecord, ho, State.record, State.timeoutRecord]

theorem State.reportTimeout_read {c : Ctx} {n : BitVec 16} {q : Nat} (ho : e.origin = .readAhead c n q) :
    s.reportTimeout m e = (s.setTrack m (some { e with state := .quarantined })).post
      { s.timeoutRecord m e with context := some c, serial := some n } := by
  simp [State.reportTimeout, State.trackRecord, ho, State.record, State.timeoutRecord]

theorem State.reportTimeout_line {c : Ctx} {n : BitVec 16} {l : Nat} (ho : e.origin = .gather c n l) :
    s.reportTimeout m e = (s.setTrack m (some { e with state := .quarantined })).post
      { s.timeoutRecord m e with context := some c, serial := some n } := by
  simp [State.reportTimeout, State.trackRecord, ho, State.record, State.timeoutRecord]

/-- The read's one entry is poisoned, and READ_FAULT posted (R66). -/
theorem State.reportTimeout_readFailed {c : Ctx} {n : BitVec 16} {q : Nat} {g : Entry}
    (hg : g ∈ (s.context c).entries) (hq : g.seq = q) (hone : ∀ g' ∈ (s.context c).entries, g'.seq = q → g' = g)
    (hst : g.state = .requested ∨ g.state = .requestedStale) (r : Reason) :
    (s.reportTimeout m e).readFailed c n q r = State.post
      ((s.reportTimeout m e).setContext c { s.context c with
        entries := (s.context c).entries.map fun g' => if g'.seq = q then { g' with state := .poisoned } else g' })
      { kind := .readFault, timestamp := s.timebase, context := some c, serial := some n, address := some g.addr,
        reason := some r, value := some g.ordinal } := by
  have same := s.reportTimeout_context m e c
  rw [State.readFailed_outstanding (s := s.reportTimeout m e) (same ▸ hg) hq (same ▸ hone) hst, State.setEntry, same,
    s.reportTimeout_timebase]

theorem State.reportTimeout_writeFaultRecord (c : Ctx) (n : BitVec 16) (l : Nat) (r : Reason) (v : Nat) :
    (s.reportTimeout m e).writeFaultRecord c n l r v = s.writeFaultRecord c n l r v := by
  simp [State.writeFaultRecord]

end Told

/-! ### The last tag (R146) -/

/-- A record posted to a queue that ends with room stands in it. -/
theorem State.mem_post {s : State} {x : EventRecord} (h : (s.post x).events.length < 32) : x ∈ (s.post x).events := by
  by_cases hroom : s.events.length < 32
  · simp [State.post_room hroom]
  · rw [State.post_full hroom] at h
    exact absurd h hroom

section Blocked

variable {s : State} {m : MemTag} {e : TrackEntry} (hb : (s.reportTimeout m e).quarantined = 32)
include hb

theorem State.quarantine_tells : (s.choosePlace m e).Tells (s.quarantine m e) := by
  rcases State.quarantine_blocked hb with h | h <;> rw [h]
  · exact (State.post_tells _ _).trans (State.tellTimeout_tells _ e)
  · exact (State.tellTimeout_tells _ e).trans (State.post_tells _ _)

theorem State.quarantine_all (u : MemTag) : ((s.quarantine m e).track u).map TrackEntry.state = some .quarantined :=
  ((State.quarantine_tells hb).track u).trans (State.quarantined_eq_all.mp hb u)

/-- TRACKER_BLOCKED and MEMORY_TIMEOUT are both in a queue that ends with room. -/
theorem State.quarantine_records (hroom : (s.quarantine m e).events.length < 32) :
    s.record .trackerBlocked ∈ (s.quarantine m e).events
      ∧ s.trackRecord .memoryTimeout m e ∈ (s.quarantine m e).events := by
  have reported : (s.reportTimeout m e).events <+: (s.quarantine m e).events := (State.quarantine_tells hb).events
  refine ⟨?_, reported.subset (State.mem_post (Nat.lt_of_le_of_lt reported.length_le hroom))⟩
  rcases State.quarantine_blocked hb with h | h <;> rw [h] at hroom ⊢
  · have told := (State.tellTimeout_tells ((s.choosePlace m e).post (s.record .trackerBlocked)) e).events
    exact told.subset (State.mem_post (Nat.lt_of_le_of_lt told.length_le hroom))
  · exact State.mem_post hroom

/-- The records of a passthrough request whose timeout blocks the tracker, in either order (log entry 9). -/
theorem State.quarantine_host {h : HostTag} {x : HostSlot} (ho : e.origin = .host h) (hx : s.slot h = some x)
    (hopen : x.answer = none) (hroom : s.events.length + 3 ≤ 32) :
    (s.quarantine m e).slot h = some { x with answer := some ⟨.fault, x.readData⟩ }
      ∧ ((s.quarantine m e).events = s.events ++ [{ s.timeoutRecord m e with tag := some h },
            s.record .trackerBlocked, s.hostFaultRecord h x .memoryTimeout]
        ∨ (s.quarantine m e).events = s.events ++ [{ s.timeoutRecord m e with tag := some h },
            s.hostFaultRecord h x .memoryTimeout, s.record .trackerBlocked]) := by
  have answered (r : State) (hr : r.slot h = some x) (ht : r.timebase = s.timebase) (hlen : r.events.length < 32) :
      (r.tellTimeout e).slot h = some { x with answer := some ⟨.fault, x.readData⟩ }
        ∧ (r.tellTimeout e).events = r.events ++ [s.hostFaultRecord h x .memoryTimeout] := by
    have a := State.answer_answersFault hr hopen .memoryTimeout
    rw [State.tellTimeout_host ho]
    refine ⟨a.answered h (List.mem_singleton_self h) x hr, ?_⟩
    rw [a.events (by simpa using hlen)]
    simp [hr, State.hostFaultRecord_congr ht]
  have slot : (s.choosePlace m e).slot h = some x := (s.reportTimeout_slot m e h).trans hx
  have time : (s.choosePlace m e).timebase = s.timebase := s.reportTimeout_timebase m e
  have events : (s.choosePlace m e).events = s.events ++ [{ s.timeoutRecord m e with tag := some h }] := by
    show (s.reportTimeout m e).events = _
    rw [State.reportTimeout_host ho, State.post_room (by show s.events.length < 32; omega)]
    rfl
  have len : (s.choosePlace m e).events.length = s.events.length + 1 := by simp [events]
  rcases State.quarantine_blocked hb with hq | hq <;> rw [hq]
  · have room := State.post_room (s := s.choosePlace m e) (by omega) (s.record .trackerBlocked)
    obtain ⟨hs, he⟩ := answered ((s.choosePlace m e).post (s.record .trackerBlocked)) (by simpa using slot)
      (by simpa using time) (by rw [room]; simp [len]; omega)
    exact ⟨hs, .inl (by rw [he, room]; simp [events])⟩
  · obtain ⟨hs, he⟩ := answered (s.choosePlace m e) slot time (by omega)
    have room := State.post_room (s := (s.choosePlace m e).tellTimeout e) (by rw [he]; simp [len]; omega)
      (s.record .trackerBlocked)
    exact ⟨by simpa using hs, .inr (by rw [room]; simp [he, events])⟩

end Blocked

/-- The fields of MEMORY_TIMEOUT that no origin changes. -/
theorem State.trackRecord_fields (s : State) (k : EventKind) (m : MemTag) (e : TrackEntry) :
    (s.trackRecord k m e).kind = k ∧ (s.trackRecord k m e).timestamp = s.timebase
      ∧ (s.trackRecord k m e).value = some m.val ∧ (s.trackRecord k m e).address = some e.span.start := by
  unfold State.trackRecord
  cases e.origin <;> exact ⟨rfl, rfl, rfl, rfl⟩

/-- Settles O38: the quarantine by the condition of its timer, the telling by the origin, and TRACKER_BLOCKED where no
other tag is free or IN_FLIGHT. -/
theorem timedOutRequestIsQuarantined : Obligations.TimedOutRequestIsQuarantined := by
  intro s m e hm hf time due unblocked timeout told tail
  have hdue : s.requestTimedOut m = true ↔ due := State.requestTimedOut_iff hm hf
  have hexec (h : due) := exec_memoryTimeout_due hm (hdue.mpr h)
  refine ⟨fun h => exec_memoryTimeout_early (Bool.eq_false_iff.mpr (mt hdue.mp h)), fun h hfree => ?_,
    fun h hfull => ?_⟩
  · have hq := State.quarantine_unblocked (mt (s.reportTimeout_blocked_iff m e).mp (not_not_intro hfree))
    have hrun := hexec h
    rw [hq] at hrun
    refine ⟨fun u ho => ⟨_, hrun, ?_⟩, fun c n q ho => ?_, fun c n l ho => ?_⟩
    · rw [State.tellTimeout_host ho, State.reportTimeout_host ho]
      exact State.settle_resettled _
    · intro s₁
      have hs₁ : s₁ = s.reportTimeout m e := (State.reportTimeout_read ho).symm
      refine ⟨fun hd => ⟨_, hrun, ?_⟩, fun hd g hg hgq hone hst => ⟨_, hrun, ?_⟩⟩
      · rw [State.tellTimeout_read ho, if_pos hd, hs₁]
        exact State.settle_resettled _
      · rw [State.tellTimeout_read ho, hd, hs₁, ← State.reportTimeout_readFailed hg hgq hone hst]
        exact State.settle_resettled _
    · intro s₁
      have hs₁ (v : Nat) : s₁ v = (s.reportTimeout m e).post
          ((s.reportTimeout m e).writeFaultRecord c n l .memoryTimeout v) := by
        rw [State.reportTimeout_writeFaultRecord, State.reportTimeout_line ho]; rfl
      refine ⟨fun hd => ⟨_, hrun, ?_⟩, fun hd => ⟨_, hrun, ?_⟩⟩
      · rw [State.tellTimeout_line ho, hd, hs₁]
        exact State.settle_resettled _
      · have faulted : (s.reportTimeout m e).tellTimeout e
            = (s₁ (s.context c).lines.length).faultLines c .memoryTimeout := by
          rw [State.tellTimeout_line ho, hd, hs₁, ← s.reportTimeout_context m e c]
          exact State.lineFailed_attached _ c n l _ _
        rw [faulted]
        have k := ((s₁ (s.context c).lines.length).faultLines c .memoryTimeout).settle_resettled
        obtain ⟨hlines, hissuing, hattached, hfifo⟩ :=
          (s₁ (s.context c).lines.length).faultLines_settled c .memoryTimeout
        refine ⟨(State.faultLines_faultedBy _ c _).resettled k, hlines, hissuing, hattached, hfifo, ?_⟩
        rw [k.track, State.faultLines_trackState, hs₁, State.post_track, State.reportTimeout_track, if_pos rfl]
        rfl
  · have hb := (s.reportTimeout_blocked_iff m e).mpr hfull
    have k := (s.quarantine m e).settle_resettled
    refine ⟨_, hexec h, fun u => by rw [k.track]; exact State.quarantine_all hb u, fun hroom => ?_,
      fun u x ho hx hopen hroom => ?_⟩
    · rw [k.events] at hroom ⊢
      obtain ⟨hblocked, htimeout⟩ := State.quarantine_records hb hroom
      exact ⟨hblocked, _, htimeout, s.trackRecord_fields .memoryTimeout m e⟩
    · obtain ⟨hslot, hevents⟩ := State.quarantine_host hb ho hx hopen hroom
      rw [k.events, k.slot]
      exact ⟨⟨_, hslot, rfl⟩, hevents⟩

end Sys2Proof.Machine
end

section
/-! Requests that span an aperture or pass through (O8), lines flushed or aged (O28), and their admission (O33). -/

namespace Sys2Proof.Machine

open Sys2Proof

/-! ### Classification outside every aperture (R120) -/

/-- A range that is not empty meets each range that it lies inside. -/
theorem Region.meets_of_inside {a b : Region} (ha : a.lo ≤ a.hi) (h : a.inside b = true) : a.meets b = true := by
  simp only [Region.inside, Region.meets, Bool.and_eq_true, decide_eq_true_eq] at h ⊢
  omega

/-- A request addresses at least one byte, so its range is not empty (R113). -/
theorem HostRequest.range_nonempty {r : HostRequest} (h : r.wf = true) : r.range.lo ≤ r.range.hi := by
  have := HostRequest.length_pos h
  simp only [HostRequest.range]
  omega

theorem State.mem_apertureList {s : State} {a : Aperture} : a ∈ s.apertureList ↔ ∃ i, s.aperture i = a := by
  simp [State.apertureList]

theorem State.meetsAperture_eq_true {s : State} {q : Region} :
    s.meetsAperture q = true ↔ ∃ i, (s.aperture i).enabled = true ∧ q.meets (s.aperture i).range = true := by
  simp [State.meetsAperture, State.mem_apertureList]

section Classify

variable {s : State} {r : HostRequest}

/-- A request inside no enabled aperture is classified by whether it meets one. -/
theorem State.classify_of_not_inside
    (h : ∀ i, (s.aperture i).enabled = true → r.range.inside (s.aperture i).range = false) :
    s.classify r = if s.meetsAperture r.range then .span else .passthrough := by
  have none_holds : (s.apertureList.find? fun a => a.enabled && r.range.inside a.range) = none := by
    rw [List.find?_eq_none]
    intro a ha
    obtain ⟨i, rfl⟩ := State.mem_apertureList.mp ha
    simpa using h i
  simp [State.classify, none_holds]

theorem State.classify_span
    (hm : ∃ i, (s.aperture i).enabled = true ∧ r.range.meets (s.aperture i).range = true)
    (h : ∀ i, (s.aperture i).enabled = true → r.range.inside (s.aperture i).range = false) :
    s.classify r = .span := by
  rw [State.classify_of_not_inside h, if_pos (State.meetsAperture_eq_true.mpr hm)]

theorem State.classify_passthrough (hr : r.wf = true)
    (h : ∀ i, (s.aperture i).enabled = true → r.range.meets (s.aperture i).range = false) :
    s.classify r = .passthrough := by
  have out (i : ApIx) (he : (s.aperture i).enabled = true) : r.range.inside (s.aperture i).range = false := by
    rw [Bool.eq_false_iff]
    intro hi
    have meets := Region.meets_of_inside (HostRequest.range_nonempty hr) hi
    rw [h i he] at meets
    cases meets
  rw [State.classify_of_not_inside out, if_neg]
  rw [State.meetsAperture_eq_true]
  rintro ⟨i, he, hi⟩
  rw [h i he] at hi
  cases hi

end Classify

/-! ### The arrival of a passthrough request (R82, R125) -/

/-- The wait set names the lines that overlap the request, by context and slot (R82). -/
theorem State.mem_waitSetFor {s : State} {p : Span} {c : Ctx} {k : Fin 4} :
    (c, k) ∈ s.waitSetFor p ↔ ∃ l ∈ (s.context c).lines, l.slot = k ∧ l.span.overlaps p = true := by
  simp only [State.waitSetFor, List.mem_flatMap, List.mem_map, List.mem_filter, Prod.mk.injEq]
  constructor
  · rintro ⟨_, -, l, ⟨hl, ho⟩, rfl, rfl⟩
    exact ⟨l, hl, rfl, ho⟩
  · rintro ⟨l, hl, rfl, ho⟩
    exact ⟨c, mem_allCtx c, l, ⟨hl, ho⟩, rfl, rfl⟩

/-- Making the lines that a test selects ISSUING in every context resettles. -/
theorem State.issueWhere_resettled (s : State) (p : GatherLine → Bool) : s.Resettled (s.mapContexts fun _ x =>
    { x with lines := x.lines.map fun l => if p l then l.issue else l }) :=
  s.mapContexts_resettled _ fun _ => Context.issueSome_resettled _ _

/-- A line that is made ISSUING stays so through what decides the waits afresh (R79). -/
theorem Context.Resettled.issue_mem {x y : Context} {l : GatherLine} (h : x.Resettled y) (hl : l.issue ∈ x.lines) :
    l.issue ∈ y.lines := h.stay _ hl rfl

theorem GatherLine.issue_mem_map {ls : List GatherLine} {l : GatherLine} {p : GatherLine → Bool} (hl : l ∈ ls)
    (hp : p l = true) : l.issue ∈ ls.map fun g => if p g then g.issue else g :=
  List.mem_map.mpr ⟨l, hl, if_pos hp⟩

section Arrives

variable {s : State} {r : HostRequest} (hlow : s.rstLow = false) (hf : s.slot r.tag = none)
  (hm : r.malformed = false)
include hlow hf hm

theorem exec_arrival_span (hc : s.classify r = .span) : exec (.hostRequestArrival r) s
    = .next ((s.setSlot r.tag (some { r.newSlot with cls := none })).answer r.tag (some .span)).settle := by
  show Host.Outcome.next (s.arrival r) = _
  simp only [State.arrival, State.accept, hlow, hf, hm, hc]
  rfl

theorem exec_arrival_passthrough (hc : s.classify r = .passthrough) : exec (.hostRequestArrival r) s
    = .next ((s.setSlot r.tag (some { r.newSlot with cls := some .passthrough })).passArrival r).settle := by
  show Host.Outcome.next (s.arrival r) = _
  simp only [State.arrival, State.accept, hlow, hf, hm, hc]
  rfl

end Arrives

/-- A passthrough arrival appends to the FIFO and makes the lines of the wait set ISSUING. -/
theorem State.passArrival_resettled (s : State) (r : HostRequest) : State.Resettled
    { s with fifo := s.fifo ++ [{ tag := r.tag, waitSet := s.waitSetFor r.span }] } (s.passArrival r) :=
  State.issueWhere_resettled { s with fifo := s.fifo ++ [{ tag := r.tag, waitSet := s.waitSetFor r.span }] } _

theorem State.passArrival_lines (s : State) (r : HostRequest) (c : Ctx) : ((s.passArrival r).context c).lines
    = (s.context c).lines.map fun l => if l.span.overlaps r.span then l.issue else l :=
  congrArg Context.lines (s.context_mapContexts (fun _ x =>
    { x with lines := x.lines.map fun l => if l.span.overlaps r.span then l.issue else l }) c)

/-- Settles O8: the classification outside every aperture, and the arrival that it makes. -/
theorem spanAndPassthroughArrival : Obligations.SpanAndPassthroughArrival := by
  intro s r hr hm hlow hf
  refine ⟨fun hmeet hout => ?_, fun hout => ?_⟩
  · exact ⟨_, exec_arrival_span hlow hf hm (State.classify_span hmeet hout), State.settle_resettled _⟩
  · have hexec := exec_arrival_passthrough hlow hf hm (State.classify_passthrough hr hout)
    generalize hs₁ : s.setSlot r.tag (some { r.newSlot with cls := some .passthrough }) = s₁ at hexec
    have same (c : Ctx) : s₁.context c = s.context c := by rw [← hs₁, State.setSlot_context]
    have settled := (s₁.passArrival r).settle_resettled
    refine ⟨_, s₁.waitSetFor r.span, hexec, ?_, fun c k => ?_, fun c l hl ho => ?_⟩
    · have arrived := (s₁.passArrival_resettled r).trans settled
      rwa [show s₁.fifo = s.fifo by rw [← hs₁, State.setSlot_fifo]] at arrived
    · rw [State.mem_waitSetFor, same]
    · refine (settled.contexts c).issue_mem ?_
      rw [s₁.passArrival_lines, same]
      exact GatherLine.issue_mem_map hl ho

/-! ### Flushed and aged lines (R80, R81) -/

theorem ownFlushLines_badIndex {s : State} {ps : List Byte} (h : 8 ≤ argByte ps 0) :
    ownFlushLines ps s = s.refuse .badIndex := by
  simp only [ownFlushLines, indexOf_out h]

theorem ownFlushLines_done (s : State) (c : Ctx) : ownFlushLines ([] ++ [BitVec.ofNat 8 c.val]) s
    = { state := (s.setContext c (s.context c).issueAll).settle, status := .ok,
        bytes := [BitVec.ofNat 8 ((s.context c).lines.countP fun l => l.state == .opened)] } := by
  simp only [ownFlushLines, List.nil_append, indexOf_ctx, encodeLE_one]

theorem Context.issueAll_resettled (x : Context) : x.Resettled x.issueAll :=
  x.issueSome_resettled fun _ => true

/-- Where every line of a context is ISSUING, `settle` leaves the lines as they are. -/
theorem State.settle_lines_of_issuing {s : State} {c : Ctx} (h : ∀ l ∈ (s.context c).lines, l.state = .issuing) :
    (s.settle.context c).lines = (s.context c).lines := by
  have id_of {ls : List GatherLine} (hls : ∀ l ∈ ls, l.state = .issuing) : ls.map GatherLine.issue = ls :=
    (List.map_congr_left fun l hl => GatherLine.issue_of_issuing (hls l hl)).trans (List.map_id' ls)
  have issuing : ∀ l ∈ (s.settle.context c).lines, l.state = .issuing := by
    intro l hl
    rw [s.settle_context, Context.orderIssuing_lines] at hl
    rcases (s.settle_held c).mem l hl with hl | hl
    · rw [s.fillFlush_lines] at hl
      obtain ⟨g, hg, rfl⟩ := List.mem_map.mp hl
      split
      · rfl
      · exact h g hg
    · exact hl
  calc (s.settle.context c).lines = (s.settle.context c).lines.map GatherLine.issue := (id_of issuing).symm
    _ = (s.context c).lines.map GatherLine.issue := (s.settle_resettled.contexts c).lines
    _ = (s.context c).lines := id_of h

theorem State.lineAged_iff {s : State} {l : GatherLine} : s.lineAged l = true ↔ l.state = .opened
    ∧ s.settings.gatherAgeUs ≠ 0
    ∧ s.settings.gatherAgeUs ≤ (s.timebase.toNat + 2 ^ 32 - l.openedAt.toNat) % 2 ^ 32 := by
  simp only [State.lineAged, State.since_eq, Bool.and_eq_true, beq_iff_eq, decide_eq_true_eq, and_assoc]

theorem State.issueLines_resettled (s : State) (c : Ctx) (p : GatherLine → Bool) : s.Resettled (s.issueLines c p) :=
  s.setContext_resettled (Context.issueSome_resettled _ p)

theorem State.issueLines_lines (s : State) (c : Ctx) (p : GatherLine → Bool) :
    ((s.issueLines c p).context c).lines = (s.context c).lines.map fun l => if p l then l.issue else l := by
  simp [State.issueLines]

/-- GATHER_AGE_EXPIRY acts while the context holds an aged line of that address (R80). -/
theorem exec_gatherAgeExpiry_due {s : State} {c : Ctx} {a : BitVec 32}
    (h : ∃ l ∈ (s.context c).lines, (l.addr == a.toNat && s.lineAged l) = true) : exec (.gatherAgeExpiry c a) s
      = .next (s.issueLines c fun l => l.addr == a.toNat && s.lineAged l).settle := by
  show Host.Outcome.next _ = _
  rw [if_pos (List.any_eq_true.mpr h)]

theorem exec_gatherAgeExpiry_early {s : State} {c : Ctx} {a : BitVec 32}
    (h : ∀ l ∈ (s.context c).lines, ¬ (l.addr == a.toNat && s.lineAged l) = true) :
    exec (.gatherAgeExpiry c a) s = .next s := by
  show Host.Outcome.next _ = _
  rw [if_neg fun hany => ?_]
  obtain ⟨l, hl, hp⟩ := List.any_eq_true.mp hany
  exact h l hl hp

/-- Settles O28: FLUSH_LINES makes all lines ISSUING before `settle`, which then finds no OPEN line; an age makes the
lines of its address ISSUING. -/
theorem flushedAndAgedLinesIssue : Obligations.FlushedAndAgedLinesIssue := by
  refine ⟨fun s b hw hb => ?_, fun s c hw => ?_, fun s c a => ?_⟩
  · exact congrArg _ (State.command_refused hw rfl (ownFlushLines_badIndex hb))
  · intro b n
    have flushed := (s.setContext_resettled (s.context c).issueAll_resettled).trans (State.settle_resettled _)
    refine ⟨_, congrArg _ (State.command_done hw rfl (ownFlushLines_done s c)), ?_, flushed.rest, flushed.contexts⟩
    have lines : ((s.setContext c (s.context c).issueAll).context c).lines
        = (s.context c).lines.map GatherLine.issue := by rw [State.context_setContext_self]; rfl
    rw [← lines]
    refine State.settle_lines_of_issuing fun l hl => ?_
    rw [lines] at hl
    obtain ⟨g, -, rfl⟩ := List.mem_map.mp hl
    rfl
  · intro aged
    have due (l : GatherLine) : (l.addr == a.toNat && s.lineAged l) = true ↔ aged l := by
      simp only [Bool.and_eq_true, beq_iff_eq, State.lineAged_iff, aged]
    refine ⟨fun ⟨l, hl, hage⟩ => ?_, fun h => ?_⟩
    · have settled := (s.issueLines c fun l => l.addr == a.toNat && s.lineAged l).settle_resettled
      refine ⟨_, exec_gatherAgeExpiry_due ⟨l, hl, (due l).mpr hage⟩, (s.issueLines_resettled c _).trans settled,
        fun g hg hage => (settled.contexts c).issue_mem ?_⟩
      rw [s.issueLines_lines]
      exact GatherLine.issue_mem_map (p := fun l => l.addr == a.toNat && s.lineAged l) hg ((due g).mpr hage)
    · exact exec_gatherAgeExpiry_early fun l hl hp => h l hl ((due l).mp hp)

/-! ### The admission of a gather line (R83, R85, R86) -/

/-- The gather candidate is an ISSUING line of its context (R85). -/
theorem State.gatherCandidate_issuing {s : State} {c : Ctx} {l : GatherLine} (h : s.gatherCandidate c = some l) :
    l.state = .issuing ∧ l ∈ (s.context c).lines := by
  simp only [State.gatherCandidate, Option.filter_eq_some_iff, Bool.and_eq_true, beq_iff_eq] at h
  obtain ⟨hfirst, hissuing, -⟩ := h
  obtain ⟨k, rest, before, after, -, hlines, -⟩ := Context.firstIssuing_eq_some.mp hfirst
  exact ⟨hissuing, by simp [hlines]⟩

theorem State.gatherLineAdmission_admits {s : State} {c : Ctx} {l : GatherLine}
    (h : s.nextAdmission = some (Source.gather c).position) (hc : s.gatherCandidate c = some l) :
    s.gatherLineAdmission c = (s.admitLine c l).settle := by
  simp [State.gatherLineAdmission, State.admitsNext, h, hc]

theorem position_after_gather (c : Ctx) : (Source.gather c).position + 1 = Fin.ofNat 17 (3 + 2 * c.val) := by
  revert c; decide

section LineRequest

variable (l : GatherLine) (c : Ctx) (serial : BitVec 16)

theorem GatherLine.request_data_length : (l.request c serial).data.length = 4 * l.span.beats := by
  simp [GatherLine.request]

theorem GatherLine.request_strobes_length : (l.request c serial).strobes.length = 4 * l.span.beats := by
  simp [GatherLine.request]

/-- A byte of the write range is strobed exactly where it is valid (R86). -/
theorem GatherLine.request_strobes_getElem? {i : Nat} (hi : i < 4 * l.span.beats) :
    (l.request c serial).strobes[i]? = some (l.valid.getLsbD (l.span.start - l.addr + i)) := by
  simp [GatherLine.request, hi]

/-- A valid byte carries the line's data, another one 0 (R86). -/
theorem GatherLine.request_data_getElem? {i : Nat} (hi : i < 4 * l.span.beats) :
    (l.request c serial).data[i]? = some (if l.valid.getLsbD (l.span.start - l.addr + i) then
      l.data.getD (l.span.start - l.addr + i) 0 else 0) := by
  simp [GatherLine.request, hi]

end LineRequest

/-- Settles O33: the candidate is an ISSUING line, and its admission is a write of the line's own bytes. -/
theorem gatherLineAdmissionMakesWrite : Obligations.GatherLineAdmissionMakesWrite := by
  intro s c l hnext hc
  obtain ⟨hissuing, hmem⟩ := State.gatherCandidate_issuing hc
  have hexec : exec (.gatherLineAdmission c) s = .next (s.admitLine c l).settle :=
    congrArg Host.Outcome.next (State.gatherLineAdmission_admits hnext hc)
  have admitted := (s.admitLine c l).settle_resettled
  refine ⟨_, l.request c (s.context c).serial, hexec, hissuing, hmem, ?_, rfl, rfl, rfl, rfl,
    l.request_data_length c _, l.request_strobes_length c _,
    fun i hi => ⟨l.request_strobes_getElem? c _ hi, l.request_data_getElem? c _ hi⟩⟩
  rw [State.admitLine, State.enqueue, position_after_gather] at admitted ⊢
  exact admitted

end Sys2Proof.Machine
end

section
/-! Timers that run out: what a memory timeout and a pace timeout leave of the machine, whoever else they meet
(R105, R145, R146), and SET_TIMERS (O47). -/

namespace Sys2Proof.Machine

open Sys2Proof

/-! ### What follows a timeout (R66, R90, R145, R146) -/

/-- A tracker entry apart from its detached flag. -/
def TrackEntry.undetached (e : TrackEntry) : TrackEntry := { e with detached := false }

/-- The kinds of the records that a timer can post when it runs out. -/
def timerKinds : List EventKind := [.hostFault, .readFault, .writeFault, .leaderLost, .memoryTimeout, .trackerBlocked]

/-- From `s` to `t` answers were given and records posted, contexts may have faulted, and requests may have been
detached; nothing else became of any request in memory, and settings and time stand. -/
structure State.Aftermath (s t : State) : Prop where
  keeps : s.Keeps t
  upholds : State.Upholds timerKinds s t
  requests : ∀ u, (t.track u).map TrackEntry.undetached = (s.track u).map TrackEntry.undetached

theorem State.Aftermath.refl (s : State) : s.Aftermath s := ⟨.refl s, .refl s _, fun _ => rfl⟩

theorem State.Aftermath.trans {s t r : State} (h : s.Aftermath t) (k : t.Aftermath r) : s.Aftermath r :=
  ⟨h.keeps.trans k.keeps, h.upholds.trans k.upholds, fun u => (k.requests u).trans (h.requests u)⟩

theorem State.Resettled.aftermath {s t : State} (h : s.Resettled t) : s.Aftermath t :=
  ⟨h.keeps, h.upholds _, fun u => by rw [h.track]⟩

theorem State.ServesQueue.aftermath {c : Ctx} {s t : State} (h : State.ServesQueue c s t) : s.Aftermath t :=
  ⟨h.serves.keeps, h.upholds.mono (by simp [timerKinds]), fun u => by rw [h.serves.track]⟩

section Aftermath

variable (s : State)

theorem State.post_aftermath (x : EventRecord) (h : x.kind ∈ timerKinds) : s.Aftermath (s.post x) :=
  ⟨s.post_keeps x, s.post_upholds x h, fun u => by rw [s.post_track]⟩

theorem State.answer_aftermath (t : HostTag) (why : Option HostReason) : s.Aftermath (s.answer t why) :=
  ⟨(s.answer_serves t why).keeps, (s.answer_upholds t why).mono (by simp [timerKinds]),
    fun u => by rw [(s.answer_serves t why).track]⟩

theorem State.setContext_aftermath (c : Ctx) (x : Context) : s.Aftermath (s.setContext c x) :=
  ⟨s.setContext_keeps c x, s.setContext_upholds c x _, fun _ => rfl⟩

theorem State.readFailed_aftermath (c : Ctx) (n : BitVec 16) (q : Nat) (r : Reason) :
    s.Aftermath (s.readFailed c n q r) := by
  unfold State.readFailed
  split
  · exact .refl s
  · exact (s.setContext_aftermath c _).trans (State.post_aftermath _ _ (by simp [timerKinds, State.record]))

theorem State.detach_aftermath (p : Origin → Bool) (b : Bool) : s.Aftermath (s.detach p b) := by
  refine ⟨s.detach_keeps p b, .of_eq (s := s) (t := s.detach p b) rfl rfl rfl _, fun u => ?_⟩
  rw [State.detach_track]
  cases s.track u with
  | none => rfl
  | some e =>
    simp only [Option.map_some]
    split <;> rfl

theorem State.faultContext_aftermath (c : Ctx) (why : FaultReason) : s.Aftermath (s.faultContext c why) :=
  ⟨s.faultContext_keeps c why, (s.faultContext_upholds c why).mono (by simp [timerKinds]),
    fun u => by rw [s.faultContext_track]⟩

theorem State.faultLines_aftermath (c : Ctx) (why : FaultReason) : s.Aftermath (s.faultLines c why) := by
  have discarded : s.Aftermath (s.discardLines c) :=
    ⟨s.discardLines_keeps c, .of_eq (s := s) (t := s.discardLines c) rfl rfl rfl _, fun _ => rfl⟩
  exact (discarded.trans (State.detach_aftermath _ _ _)).trans (State.faultContext_aftermath _ c why)

theorem State.lineFailed_aftermath (c : Ctx) (n : BitVec 16) (l : Nat) (b : Bool) (why : FaultReason) (r : Reason) :
    s.Aftermath (s.lineFailed c n l b why r) := by
  have posted (v : Nat) : s.Aftermath (s.post (s.writeFaultRecord c n l r v)) :=
    s.post_aftermath _ (by simp [timerKinds, State.writeFaultRecord])
  cases b with
  | false => exact posted 0
  | true =>
    rw [State.lineFailed_attached]
    exact (posted _).trans (State.faultLines_aftermath _ c why)

theorem State.tellTimeout_aftermath (e : TrackEntry) : s.Aftermath (s.tellTimeout e) := by
  cases ho : e.origin with
  | host h => rw [State.tellTimeout_host ho]; exact s.answer_aftermath h _
  | readAhead c n q =>
    rw [State.tellTimeout_read ho]
    split
    · exact .refl s
    · exact s.readFailed_aftermath c n q _
  | gather c n l => rw [State.tellTimeout_line ho]; exact s.lineFailed_aftermath c n l _ _ _

/-- After MEMORY_TIMEOUT is posted, a quarantine does to no request more than to detach it (R145, R146). -/
theorem State.quarantine_aftermath (m : MemTag) (e : TrackEntry) :
    (s.reportTimeout m e).Aftermath (s.quarantine m e) := by
  by_cases hb : (s.reportTimeout m e).quarantined = 32
  · have chosen : (s.reportTimeout m e).Aftermath (s.choosePlace m e) :=
      ⟨rfl, .of_eq (s := s.reportTimeout m e) (t := s.choosePlace m e) rfl rfl rfl _, fun _ => rfl⟩
    have blocked (t : State) : t.Aftermath (t.post (s.record .trackerBlocked)) :=
      t.post_aftermath _ (by simp [timerKinds, State.record])
    rcases State.quarantine_blocked hb with h | h <;> rw [h]
    · exact (chosen.trans (blocked _)).trans (State.tellTimeout_aftermath _ e)
    · exact (chosen.trans (State.tellTimeout_aftermath _ e)).trans (blocked _)
  · rw [State.quarantine_unblocked hb]
    exact State.tellTimeout_aftermath _ e

theorem State.reportTimeout_keeps (m : MemTag) (e : TrackEntry) : s.Keeps (s.reportTimeout m e) :=
  (s.setTrack_keeps m _).trans (State.post_keeps _ _)

theorem State.reportTimeout_upholds (m : MemTag) (e : TrackEntry) :
    State.Upholds timerKinds s (s.reportTimeout m e) := by
  have quarantined (x : TrackEntry) : State.Upholds timerKinds s (s.setTrack m (some x)) :=
    .of_eq (s := s) (t := s.setTrack m (some x)) rfl rfl rfl _
  refine (quarantined _).trans (State.post_upholds _ _ ?_)
  rw [(s.trackRecord_fields .memoryTimeout m e).1]
  simp [timerKinds]

end Aftermath

/-! ### One timer of SET_TIMERS (R105, R145, R163) -/

section Expire

variable {s : State} {m : MemTag} {c : Ctx}

theorem State.expire_head_due (h : s.headTimedOut c = true) :
    s.expire (.head c) = (s.finishEarly c .paceTimeout).decideAfresh := if_pos h

theorem State.expire_head_early (h : s.headTimedOut c = false) : s.expire (.head c) = s := by simp [State.expire, h]

theorem State.expire_request_early (h : s.requestTimedOut m = false) : s.expire (.request m) = s := by
  simp [State.expire, h]

theorem State.expire_request_due {e : TrackEntry} (hm : s.track m = some e) (h : s.requestTimedOut m = true) :
    s.expire (.request m) = (s.quarantine m e).decideAfresh := by
  simp only [State.expire, State.timeoutRequest, hm, h, if_true]

/-- A request whose time has run out is one that the tracker holds. -/
theorem State.track_of_requestTimedOut (h : s.requestTimedOut m = true) : ∃ e, s.track m = some e := by
  cases hm : s.track m with
  | none => simp [State.requestTimedOut, hm] at h
  | some e => exact ⟨e, rfl⟩

/-- A request that is quarantined runs out no more. -/
theorem State.requestTimedOut_quarantined {e : TrackEntry} (hm : s.track m = some e) (hq : e.state = .quarantined) :
    s.requestTimedOut m = false := by
  simp [State.requestTimedOut, hm, hq]

theorem State.expire_request_aftermath {e : TrackEntry} (hm : s.track m = some e) (h : s.requestTimedOut m = true) :
    (s.reportTimeout m e).Aftermath (s.expire (.request m)) := by
  rw [State.expire_request_due hm h]
  exact (s.quarantine_aftermath m e).trans (State.decideAfresh_resettled _).aftermath

theorem State.expire_head_aftermath (s : State) (c : Ctx) : s.Aftermath (s.expire (.head c)) := by
  cases h : s.headTimedOut c with
  | false => rw [State.expire_head_early h]; exact .refl s
  | true =>
    rw [State.expire_head_due h]
    exact (s.finishEarly_servesQueue c _).aftermath.trans (State.decideAfresh_resettled _).aftermath

end Expire

/-- No timer changes the settings or the time, or takes an answer or a record back. -/
theorem State.expire_keeps (s : State) (i : Timer) :
    s.Keeps (s.expire i) ∧ State.Upholds timerKinds s (s.expire i) := by
  cases i with
  | head c => exact ⟨(s.expire_head_aftermath c).keeps, (s.expire_head_aftermath c).upholds⟩
  | request m =>
    cases h : s.requestTimedOut m with
    | false => rw [State.expire_request_early h]; exact ⟨.refl s, .refl s _⟩
    | true =>
      obtain ⟨e, hm⟩ := State.track_of_requestTimedOut h
      have after := State.expire_request_aftermath hm h
      exact ⟨(s.reportTimeout_keeps m e).trans after.keeps, (s.reportTimeout_upholds m e).trans after.upholds⟩

/-- A timer does to another request no more than to detach it. -/
theorem State.expire_request_other (s : State) {i : Timer} {u : MemTag} (hi : i ≠ .request u) :
    ((s.expire i).track u).map TrackEntry.undetached = (s.track u).map TrackEntry.undetached := by
  cases i with
  | head c => exact (s.expire_head_aftermath c).requests u
  | request m =>
    have hne : m ≠ u := fun h => hi (congrArg _ h)
    cases h : s.requestTimedOut m with
    | false => rw [State.expire_request_early h]
    | true =>
      obtain ⟨e, hm⟩ := State.track_of_requestTimedOut h
      rw [(State.expire_request_aftermath hm h).requests, State.reportTimeout_track, if_neg hne]

/-! ### Timers that act in turn (R163; log entry 8) -/

theorem mem_insertRanked {α : Type} {rank : α → Nat} {a b : α} {l : List α} :
    b ∈ insertRanked rank a l ↔ b = a ∨ b ∈ l := by
  induction l with
  | nil => simp [insertRanked]
  | cons x l ih =>
    unfold insertRanked
    split
    · simp
    · simp only [List.mem_cons, ih]; tauto

/-- Ranking reorders and drops nothing. -/
theorem mem_sortRanked {α : Type} {rank : α → Nat} {b : α} {l : List α} : b ∈ sortRanked rank l ↔ b ∈ l := by
  induction l with
  | nil => simp [sortRanked]
  | cons a l ih => rw [sortRanked, mem_insertRanked, ih, List.mem_cons]

/-- What holds until an item has its turn, and what its turn brings about and all others leave, holds at the end. -/
theorem foldl_turn {α β : Type} {f : β → α → β} {P Q : β → Prop} {a : α} {l : List α} {r : β} (ha : a ∈ l)
    (hbefore : ∀ r, ∀ j ∈ l, j ≠ a → P r → P (f r j)) (hturn : ∀ r, P r → Q (f r a))
    (hafter : ∀ r, ∀ j ∈ l, Q r → Q (f r j)) (hr : P r) : Q (l.foldl f r) := by
  induction l generalizing r with
  | nil => cases ha
  | cons b l ih =>
    by_cases hb : b = a
    · subst hb
      exact List.foldlRecOn l f (hturn r hr) fun r hQ j hj => hafter r j (List.mem_cons_of_mem _ hj) hQ
    · exact ih ((List.mem_cons.mp ha).resolve_left (Ne.symm hb))
        (fun r j hj => hbefore r j (List.mem_cons_of_mem _ hj)) (fun r j hj => hafter r j (List.mem_cons_of_mem _ hj))
        (hbefore r b (List.mem_cons_self ..) hb hr)

/-! ### The parts of SET_TIMERS (R161, R163) -/

/-- The setting is switched off or keeps the value in force, so that no timer is compared with it (log entry 21). -/
def keptSetting (old new : Nat) : Prop := new = 0 ∨ new = old

theorem renewed_iff {old new : Nat} : renewed old new = true ↔ ¬ keptSetting old new := by
  simp [renewed, keptSetting]

section Retime

variable (s : State) (new : Settings)

/-- The state with the new settings, before any timer is compared. -/
def State.withSettings : State := { s with settings := new, choices := s.choices + 1 }

/-- The state in which heads and requests are compared: the aged lines are ISSUING (R80), and the waits decided. -/
def State.compared : State := ((s.withSettings new).ageLines s.settings).decideAfresh

/-- The timers that have run out, in the free order of their turns (log entry 8). -/
def State.dueTimers : List Timer :=
  sortRanked (fun i => Config.expiryRank s.choices i.number) ((s.compared new).expired s.settings)

/-- The state in which every timer has had its turn. -/
def State.afterTurns : State := (s.dueTimers new).foldl State.expire (s.compared new)

theorem State.retime_eq : s.retime new = (s.afterTurns new).mapContexts fun _ x => x.orderIssuing := rfl

theorem State.afterTurns_resettled : (s.afterTurns new).Resettled (s.retime new) := by
  rw [s.retime_eq]
  exact State.mapContexts_resettled _ _ fun _ => Context.orderIssuing_resettled _

theorem State.ageLines_resettled (old : Settings) : s.Resettled (s.ageLines old) := by
  unfold State.ageLines
  split
  · exact s.issueWhere_resettled _
  · exact .refl s

theorem State.aged_resettled : ((s.withSettings new).ageLines s.settings).Resettled (s.compared new) :=
  State.decideAfresh_resettled _

theorem State.compared_resettled : (s.withSettings new).Resettled (s.compared new) :=
  ((s.withSettings new).ageLines_resettled s.settings).trans (s.aged_resettled new)

variable {s new}

theorem State.head_due_iff {c : Ctx} : Timer.head c ∈ s.dueTimers new ↔
    ¬ keptSetting s.settings.paceLimitUs new.paceLimitUs ∧ (s.compared new).headTimedOut c = true := by
  have hset : (s.compared new).settings = new := by rw [(s.compared_resettled new).rest]; rfl
  simp [State.dueTimers, mem_sortRanked, State.expired, hset, renewed_iff, mem_allCtx]

theorem State.request_due_iff {m : MemTag} : Timer.request m ∈ s.dueTimers new ↔
    ¬ keptSetting s.settings.memTimeoutUs new.memTimeoutUs ∧ (s.compared new).requestTimedOut m = true := by
  have hset : (s.compared new).settings = new := by rw [(s.compared_resettled new).rest]; rfl
  simp [State.dueTimers, mem_sortRanked, State.expired, hset, renewed_iff, allTags]

/-- The new settings stand, and neither the time nor any answer is touched (R161, R163). -/
theorem State.retime_keeps : (s.withSettings new).Keeps (s.retime new)
    ∧ State.Upholds timerKinds (s.withSettings new) (s.retime new) := by
  have turns : (s.compared new).Keeps (s.afterTurns new)
      ∧ State.Upholds timerKinds (s.compared new) (s.afterTurns new) :=
    List.foldlRecOn (motive := fun r => (s.compared new).Keeps r ∧ State.Upholds timerKinds (s.compared new) r)
      _ _ ⟨.refl _, .refl _ _⟩ fun r ⟨hk, hu⟩ i _ => ⟨hk.trans (r.expire_keeps i).1, hu.trans (r.expire_keeps i).2⟩
  have before := s.compared_resettled new
  have after := s.afterTurns_resettled new
  exact ⟨(before.keeps.trans turns.1).trans after.keeps, ((before.upholds _).trans turns.2).trans (after.upholds _)⟩

end Retime

/-! ### What heads that run out of time leave (R42, R105) -/

/-- From `s` to `t` transactions were answered and waits decided: every walk is where it was, every link and every
request to memory stands. -/
structure State.ServesHeads (s t : State) : Prop where
  rest : t = { s with
    ctx := t.ctx, slots := t.slots, responses := t.responses, events := t.events, loss := t.loss }
  contexts : ∀ c, t.context c = { s.context c with
    service := (t.context c).service, headChecked := (t.context c).headChecked, hold := (t.context c).hold,
    holdStart := (t.context c).holdStart, shortfall := (t.context c).shortfall, cursor := (t.context c).cursor,
    entries := (t.context c).entries, lines := (t.context c).lines, issuing := (t.context c).issuing }
  service : ∀ c, (t.context c).service <:+ (s.context c).service

theorem State.ServesHeads.refl (s : State) : s.ServesHeads s := ⟨rfl, fun _ => rfl, fun _ => List.suffix_refl _⟩

theorem State.ServesHeads.trans {s t r : State} (h : s.ServesHeads t) (k : t.ServesHeads r) : s.ServesHeads r where
  rest := by rw [k.rest, h.rest]
  contexts := fun c => by rw [k.contexts c, h.contexts c]
  service := fun c => (k.service c).trans (h.service c)

theorem State.Resettled.servesHeads {s t : State} (h : s.Resettled t) : s.ServesHeads t where
  rest := by rw [h.rest]
  contexts := fun c => by rw [(h.contexts c).rest]
  service := fun c => by rw [h.service]

theorem State.ServesQueue.servesHeads {c : Ctx} {s t : State} (h : State.ServesQueue c s t) : s.ServesHeads t where
  rest := by
    have rest := h.serves.rest
    rwa [h.links] at rest
  contexts := fun c => by rw [h.serves.contexts c]
  service := h.serves.service

/-- The pacing step looks at the states and the progress of the contexts, and at the links (R103). -/
theorem State.paceStep_congr {s t : State} (hs : ∀ c, (t.context c).state = (s.context c).state)
    (hp : ∀ c, (t.context c).progress = (s.context c).progress) (hl : ∀ f, t.pacing f = s.pacing f) (c : Ctx) :
    t.paceStep c = s.paceStep c := by
  have lost : t.linkLost c = s.linkLost c := by simp only [State.linkLost, hs, hl]
  have may (l : PacingLink) : t.followerMay c l = s.followerMay c l := by simp only [State.followerMay, hp]
  have holds (f : Ctx) : t.leadHolds c f = s.leadHolds c f := by
    unfold State.leadHolds
    rw [hl]
    cases s.pacing f <;> simp only [hs, hp]
  simp only [State.paceStep, lost, hs, hl, may, holds]

section ServesHeads

variable {s t : State} (h : s.ServesHeads t)
include h

theorem State.ServesHeads.state (c : Ctx) : (t.context c).state = (s.context c).state := by rw [h.contexts c]
theorem State.ServesHeads.take (c : Ctx) : (t.context c).take = (s.context c).take := by rw [h.contexts c]
theorem State.ServesHeads.progress (c : Ctx) : (t.context c).progress = (s.context c).progress := by
  rw [h.contexts c]
theorem State.ServesHeads.settings : t.settings = s.settings := by rw [h.rest]
theorem State.ServesHeads.timebase : t.timebase = s.timebase := by rw [h.rest]
theorem State.ServesHeads.tracker : t.tracker = s.tracker := by rw [h.rest]
theorem State.ServesHeads.iq : t.iq = s.iq := by rw [h.rest]
theorem State.ServesHeads.links : t.links = s.links := by rw [h.rest]

theorem State.ServesHeads.paceStep (c : Ctx) : t.paceStep c = s.paceStep c :=
  State.paceStep_congr h.state h.progress (fun f => by simp only [State.pacing, h.links]) c

end ServesHeads

theorem State.expire_head_servesHeads (s : State) (c : Ctx) : s.ServesHeads (s.expire (.head c)) := by
  cases h : s.headTimedOut c with
  | false => rw [State.expire_head_early h]; exact .refl s
  | true =>
    rw [State.expire_head_due h]
    exact (s.finishEarly_servesQueue c _).servesHeads.trans (State.decideAfresh_resettled _).servesHeads

/-- A head that runs out of time leaves the Service Queues of the other contexts (R42). -/
theorem State.expire_head_service_of_ne (s : State) {c c' : Ctx} (hne : c' ≠ c) :
    ((s.expire (.head c')).context c).service = (s.context c).service := by
  cases h : s.headTimedOut c' with
  | false => rw [State.expire_head_early h]
  | true =>
    rw [State.expire_head_due h, (State.decideAfresh_resettled _).service,
      (s.finishEarly_servesQueue c' _).others c (Ne.symm hne)]

/-! ### The hold of a head over a decision of the waits (R39, R103, R105) -/

theorem State.decideAfresh_context (s : State) (c : Ctx) :
    s.decideAfresh.context c = s.fill.flushHazards.decideHold c (s.fill.flushHazards.context c) :=
  State.context_mapContexts _ _ _

/-- The hold start time after the waits are decided (R39). -/
theorem State.decideAfresh_holdStart (s : State) (c : Ctx) : (s.decideAfresh.context c).holdStart =
    if ((s.decideAfresh.context c).hold = .pace ∨ (s.decideAfresh.context c).hold = .lead)
      ∧ (s.decideAfresh.context c).hold ≠ (s.context c).hold then s.timebase else (s.context c).holdStart := by
  have start := (s.settle_held c).start
  rwa [← s.decideAfresh_context, s.fillFlush_hold, s.fillFlush_holdStart] at start

/-- The pacing step decides the hold that it leads to, whatever the hold was. -/
theorem State.decideAfresh_hold {s : State} {c : Ctx} (ha : (s.context c).state = .active) (hd : 0 < s.demand c) :
    (s.paceStep c = .pace → (s.decideAfresh.context c).hold = .pace)
      ∧ (s.paceStep c = .lead → (s.decideAfresh.context c).hold = .lead) := by
  have f := s.fillFlush_resettled
  rw [← f.demand] at hd
  rw [← f.paceStep, s.decideAfresh_context, State.decideHold, f.state, ha]
  refine ⟨fun h => ?_, fun h => ?_⟩ <;> simp [hd, h, Context.withHold]

/-- A head that is held PACE or LEAD. -/
def Context.Paced (x : Context) : Prop := x.hold = .pace ∨ x.hold = .lead

/-- The head of `c`, which waits on tag `h` for elements, is held by the pacing step (R103). -/
structure State.PaceHeld (s : State) (c : Ctx) (h : HostTag) (rest : List HostTag) (x : HostSlot) : Prop where
  active : (s.context c).state = .active
  service : (s.context c).service = h :: rest
  slot : s.slot h = some x
  demand : 0 < s.demand c
  hold : ((s.context c).hold = .pace ∧ s.paceStep c = .pace) ∨ ((s.context c).hold = .lead ∧ s.paceStep c = .lead)

/-- In `t` the head of `c` waits as it did in `s`, while other heads may have been answered. -/
structure State.StillHeld (s : State) (c : Ctx) (h : HostTag) (t : State) : Prop where
  served : s.ServesHeads t
  service : (t.context c).service = (s.context c).service
  headChecked : (t.context c).headChecked = (s.context c).headChecked
  hold : (t.context c).hold = (s.context c).hold
  holdStart : (t.context c).holdStart = (s.context c).holdStart
  slot : t.slot h = s.slot h

section PaceHeld

variable {s t : State} {c : Ctx} {h : HostTag} {rest : List HostTag} {x : HostSlot}

theorem State.StillHeld.paceHeld (k : s.StillHeld c h t) (w : s.PaceHeld c h rest x) : t.PaceHeld c h rest x where
  active := by rw [k.served.state, w.active]
  service := by rw [k.service, w.service]
  slot := by rw [k.slot, w.slot]
  demand := by
    have hs : (t.context c).service = h :: rest := by rw [k.service, w.service]
    have ht := State.head_of_service hs (k.slot.trans w.slot)
    have demand := w.demand
    rw [State.demand, State.head_of_service w.service w.slot] at demand
    rwa [State.demand, k.headChecked, ht]
  hold := by rw [k.hold, k.served.paceStep]; exact w.hold

theorem State.PaceHeld.paced (w : s.PaceHeld c h rest x) : (s.context c).Paced :=
  w.hold.imp And.left And.left

/-- The pacing step that holds the head goes on holding it, and its hold start time stands. -/
theorem State.PaceHeld.decideAfresh (w : s.PaceHeld c h rest x) : s.StillHeld c h s.decideAfresh := by
  have r := s.decideAfresh_resettled
  have hold : (s.decideAfresh.context c).hold = (s.context c).hold := by
    obtain ⟨hpace, hlead⟩ := State.decideAfresh_hold w.active w.demand
    rcases w.hold with ⟨hh, hp⟩ | ⟨hh, hp⟩
    · rw [hpace hp, hh]
    · rw [hlead hp, hh]
  refine ⟨r.servesHeads, r.service c, r.headChecked c, hold, ?_, r.slot h⟩
  rw [s.decideAfresh_holdStart, if_neg fun hn => hn.2 hold]

theorem State.StillHeld.trans {r : State} (k : s.StillHeld c h t) (l : t.StillHeld c h r) : s.StillHeld c h r :=
  ⟨k.served.trans l.served, l.service.trans k.service, l.headChecked.trans k.headChecked, l.hold.trans k.hold,
    l.holdStart.trans k.holdStart, l.slot.trans k.slot⟩

/-- Another head that runs out of time leaves a held head as it is. -/
theorem State.PaceHeld.expire_other (w : s.PaceHeld c h rest x) {c' : Ctx} (hne : c' ≠ c)
    (hout : h ∉ (s.context c').service) : s.StillHeld c h (s.expire (.head c')) := by
  cases hd : s.headTimedOut c' with
  | false =>
    rw [State.expire_head_early hd]
    exact ⟨.refl s, rfl, rfl, rfl, rfl, rfl⟩
  | true =>
    rw [State.expire_head_due hd]
    have q := s.finishEarly_servesQueue c' .paceTimeout
    have same := q.others c (Ne.symm hne)
    have finished : s.StillHeld c h (s.finishEarly c' .paceTimeout) :=
      ⟨q.servesHeads, by rw [same], by rw [same], by rw [same], by rw [same], q.slots h hout⟩
    exact finished.trans (finished.paceHeld w).decideAfresh

/-- The head of `c` has been answered PACE_TIMEOUT with the data that it had collected, and its walk goes on. -/
structure State.PaceAnswered (s : State) (c : Ctx) (h : HostTag) (rest : List HostTag) (x : HostSlot) (t : State) :
    Prop where
  served : s.ServesHeads t
  slot : ∃ y, t.slot h = some y ∧ y.answer = some ⟨.fault, x.readData⟩
  responses : h ∈ t.responses
  service : (t.context c).service <:+ rest
  record : t.events.length < 32 → s.hostFaultRecord h x .paceTimeout ∈ t.events

/-- What serves further heads and takes nothing back leaves the head answered. -/
theorem State.PaceAnswered.later {r : State} {ks : List EventKind} (k : s.PaceAnswered c h rest x t)
    (served : t.ServesHeads r) (up : State.Upholds ks t r) : s.PaceAnswered c h rest x r where
  served := k.served.trans served
  slot := by
    obtain ⟨y, hy, hya⟩ := k.slot
    exact up.answers h y _ hy hya
  responses := up.responses.subset k.responses
  service := (served.service c).trans k.service
  record := fun hroom => up.events.subset (k.record (Nat.lt_of_le_of_lt up.events.length_le hroom))

/-- A head that is answered after it waited as in `s` is answered as from `s`. -/
theorem State.StillHeld.answered {r : State} (k : s.StillHeld c h t) (a : t.PaceAnswered c h rest x r) :
    s.PaceAnswered c h rest x r :=
  ⟨k.served.trans a.served, a.slot, a.responses, a.service,
    fun hroom => State.hostFaultRecord_congr k.served.timebase h x .paceTimeout ▸ a.record hroom⟩

/-- The turn of a held head that has run out of time (R105). -/
theorem State.PaceHeld.expire (w : s.PaceHeld c h rest x) (ho : x.answer = none) (hd : s.headTimedOut c = true) :
    s.PaceAnswered c h rest x (s.expire (.head c)) := by
  obtain ⟨hresp, hans, hrest⟩ := State.finishHead_open w.service w.slot ho (some .paceTimeout)
  have q := s.finishHead_servesQueue c (some .paceTimeout)
  have finished : s.PaceAnswered c h rest x (s.finishHead c (some .paceTimeout)) := by
    refine ⟨q.servesHeads, ⟨_, hans, rfl⟩, by simp [hresp], hrest ▸ List.suffix_refl _, fun hroom => ?_⟩
    rw [s.finishHead_cons w.service, State.answer_fault w.slot ho] at hroom ⊢
    exact State.mem_post hroom
  have p := State.promote_servesQueue (s.finishHead c (some .paceTimeout)) c
  have r := State.decideAfresh_resettled (s.finishEarly c .paceTimeout)
  rw [State.expire_head_due hd]
  exact (finished.later p.servesHeads p.upholds).later r.servesHeads (r.upholds [])

/-- A held head has run out of time when it has been held for longer than the limit (R105). -/
theorem State.headTimedOut_iff : s.headTimedOut c = true ↔ (s.context c).state = .active
    ∧ (s.context c).service ≠ [] ∧ (s.context c).Paced ∧ s.settings.paceLimitUs ≠ 0
    ∧ s.settings.paceLimitUs < s.since (s.context c).holdStart := by
  simp [State.headTimedOut, Context.Paced, and_assoc]

end PaceHeld

/-! ### Requests that run out of time (R145) -/

section Requests

variable {s t : State} {m : MemTag} {e : TrackEntry}

theorem State.Keeps.settings (h : s.Keeps t) : t.settings = s.settings := by rw [h]
theorem State.Keeps.timebase (h : s.Keeps t) : t.timebase = s.timebase := by rw [h]
theorem State.Keeps.usLength (h : s.Keeps t) : t.usLength = s.usLength := by rw [h]

theorem State.since_congr (h : t.timebase = s.timebase) (v : BitVec 32) : t.since v = s.since v := by
  rw [State.since, State.since, h]

/-- In `t` the tracker entry of `m` is `e`, detached or not, and settings and time are those of `s`. -/
structure State.RequestStands (s : State) (m : MemTag) (e : TrackEntry) (t : State) : Prop where
  keeps : s.Keeps t
  track : (t.track m).map TrackEntry.undetached = some e.undetached

theorem State.RequestStands.entry (k : s.RequestStands m e t) :
    ∃ y, t.track m = some y ∧ y.kind = e.kind ∧ y.span = e.span ∧ y.origin = e.origin ∧ y.state = e.state
      ∧ y.sent = e.sent := by
  obtain ⟨y, hy, same⟩ := Option.map_eq_some_iff.mp k.track
  simp only [TrackEntry.undetached, TrackEntry.mk.injEq] at same
  obtain ⟨hk, hsp, ho, -, hs, ht⟩ := same
  exact ⟨y, hy, hk, hsp, ho, hs, ht⟩

/-- Whether a request runs out does not depend on its detached flag (R145). -/
theorem State.RequestStands.timedOut_iff (k : s.RequestStands m e t) : t.requestTimedOut m = true ↔
    e.state = .inFlight ∧ s.settings.memTimeoutUs ≠ 0 ∧ s.settings.memTimeoutUs < s.since e.sent := by
  obtain ⟨y, hy, -, -, -, hs, ht⟩ := k.entry
  simp only [State.requestTimedOut, hy, Option.any_some, hs, ht, k.keeps.settings, State.since_congr k.keeps.timebase,
    Bool.and_eq_true, beq_iff_eq, decide_eq_true_eq, and_assoc]

theorem State.RequestStands.aftermath {r : State} (k : s.RequestStands m e t) (h : t.Aftermath r) :
    s.RequestStands m e r := ⟨k.keeps.trans h.keeps, (h.requests m).trans k.track⟩

/-- The turns of other timers leave a request, and so does its own while its time has not run out. -/
theorem State.RequestStands.expire (k : s.RequestStands m e t) {i : Timer}
    (hi : i ≠ .request m ∨ t.requestTimedOut m = false) : s.RequestStands m e (t.expire i) := by
  by_cases h : i = .request m
  · have early : t.expire i = t := h ▸ State.expire_request_early (hi.resolve_left (not_not_intro h))
    rwa [early]
  · exact ⟨k.keeps.trans (t.expire_keeps i).1, (t.expire_request_other h).trans k.track⟩

/-- In `t` the request on tag `m` is quarantined, and MEMORY_TIMEOUT stands in a queue with room. -/
structure State.RequestQuarantined (s : State) (m : MemTag) (e : TrackEntry) (t : State) : Prop where
  stands : s.RequestStands m { e with state := .quarantined } t
  record : t.events.length < 32 → ∃ r ∈ t.events, r.kind = .memoryTimeout ∧ r.timestamp = s.timebase
    ∧ r.value = some m.val ∧ r.address = some e.span.start

/-- What leaves the quarantined request and takes no record back leaves it quarantined. -/
theorem State.RequestQuarantined.later {r : State} {ks : List EventKind} (k : s.RequestQuarantined m e t)
    (stands : s.RequestStands m { e with state := .quarantined } r) (up : State.Upholds ks t r) :
    s.RequestQuarantined m e r := by
  refine ⟨stands, fun hroom => ?_⟩
  obtain ⟨x, hx, fields⟩ := k.record (Nat.lt_of_le_of_lt up.events.length_le hroom)
  exact ⟨x, up.events.subset hx, fields⟩

theorem State.RequestQuarantined.expire (k : s.RequestQuarantined m e t) (i : Timer) :
    s.RequestQuarantined m e (t.expire i) := by
  obtain ⟨y, hy, -, -, -, hs, -⟩ := k.stands.entry
  exact k.later (k.stands.expire (.inr (State.requestTimedOut_quarantined hy hs))) (t.expire_keeps i).2

/-- The turn of a request whose time has run out (R145). -/
theorem State.RequestStands.expire_due (k : s.RequestStands m e t) (h : t.requestTimedOut m = true) :
    s.RequestQuarantined m e (t.expire (.request m)) := by
  obtain ⟨y, hy, same⟩ := Option.map_eq_some_iff.mp k.track
  obtain ⟨y', hy', -, hspan, -⟩ := k.entry
  obtain rfl := Option.some.inj (hy.symm.trans hy')
  have after := State.expire_request_aftermath hy h
  have quarantined : ({ y with state := .quarantined } : TrackEntry).undetached
      = ({ e with state := .quarantined } : TrackEntry).undetached :=
    congrArg (fun a : TrackEntry => { a with state := .quarantined }) same
  have reported : s.RequestQuarantined m e (t.reportTimeout m y) := by
    refine ⟨⟨k.keeps.trans (t.reportTimeout_keeps m y), ?_⟩, fun hroom => ?_⟩
    · rw [State.reportTimeout_track, if_pos rfl, Option.map_some, quarantined]
    · obtain ⟨hkind, htime, hvalue, haddr⟩ := t.trackRecord_fields .memoryTimeout m y
      exact ⟨_, State.mem_post hroom, hkind, htime.trans k.keeps.timebase, hvalue, by rw [haddr, hspan]⟩
  exact reported.later (reported.stands.aftermath after) after.upholds

end Requests

/-! ### The event of SET_TIMERS as a whole (R161, R163) -/

section SetTimers

variable {s : State} {new : Settings}

/-- Only a new PACE_LIMIT_US and a new MEM_TIMEOUT_US give timers a turn. -/
theorem State.dueTimers_nil (hp : keptSetting s.settings.paceLimitUs new.paceLimitUs)
    (hm : keptSetting s.settings.memTimeoutUs new.memTimeoutUs) : s.dueTimers new = [] := by
  refine List.eq_nil_iff_forall_not_mem.mpr fun i hi => ?_
  cases i with
  | head c => exact (State.head_due_iff.mp hi).1 hp
  | request m => exact (State.request_due_iff.mp hi).1 hm

/-- Without a new MEM_TIMEOUT_US the turns are those of heads. -/
theorem State.due_is_head (hm : keptSetting s.settings.memTimeoutUs new.memTimeoutUs) {i : Timer}
    (hi : i ∈ s.dueTimers new) : ∃ c, i = .head c := by
  cases i with
  | head c => exact ⟨c, rfl⟩
  | request m => exact absurd hm (State.request_due_iff.mp hi).1

theorem State.retime_resettled (hp : keptSetting s.settings.paceLimitUs new.paceLimitUs)
    (hm : keptSetting s.settings.memTimeoutUs new.memTimeoutUs) :
    ((s.withSettings new).ageLines s.settings).Resettled (s.retime new) := by
  have turns := s.afterTurns_resettled new
  rw [State.afterTurns, State.dueTimers_nil hp hm] at turns
  exact (s.aged_resettled new).trans turns

/-- Under a new GATHER_AGE_US every OPEN line whose age has reached it is ISSUING (R80). -/
theorem State.ageLines_issued (hg : ¬ keptSetting s.settings.gatherAgeUs new.gatherAgeUs) {c : Ctx} {l : GatherLine}
    (hl : l ∈ (s.context c).lines) (ho : l.state = .opened)
    (ha : new.gatherAgeUs ≤ (s.timebase.toNat + 2 ^ 32 - l.openedAt.toNat) % 2 ^ 32) :
    l.issue ∈ (((s.withSettings new).ageLines s.settings).context c).lines := by
  have aged : (s.withSettings new).lineAged l = true := State.lineAged_iff.mpr ⟨ho, fun h => hg (.inl h), ha⟩
  have compares : renewed s.settings.gatherAgeUs (s.withSettings new).settings.gatherAgeUs = true := renewed_iff.mpr hg
  rw [State.ageLines, if_pos compares, State.context_mapContexts]
  exact GatherLine.issue_mem_map (ls := (s.context c).lines) hl aged

/-- Ages change the lines of a context only. -/
theorem State.ageLines_context (s : State) (old : Settings) (c : Ctx) :
    (s.ageLines old).context c = { s.context c with lines := ((s.ageLines old).context c).lines } := by
  unfold State.ageLines
  split
  · rw [State.context_mapContexts]
  · rfl

theorem State.retime_servesHeads (hm : keptSetting s.settings.memTimeoutUs new.memTimeoutUs) :
    (s.withSettings new).ServesHeads (s.retime new) := by
  have turns : (s.compared new).ServesHeads (s.afterTurns new) := by
    refine List.foldlRecOn _ _ (.refl _) fun r k i hi => ?_
    obtain ⟨c, rfl⟩ := State.due_is_head hm hi
    exact k.trans (r.expire_head_servesHeads c)
  exact ((s.compared_resettled new).servesHeads.trans turns).trans (s.afterTurns_resettled new).servesHeads

/-- Under a new PACE_LIMIT_US a head that the pacing step has held for longer is answered (R105). -/
theorem State.PaceHeld.retime {c : Ctx} {h : HostTag} {rest : List HostTag} {x : HostSlot}
    (w : s.PaceHeld c h rest x) (ho : x.answer = none) (hout : ∀ g, g ≠ c → h ∉ (s.context g).service)
    (hm : keptSetting s.settings.memTimeoutUs new.memTimeoutUs)
    (hp : ¬ keptSetting s.settings.paceLimitUs new.paceLimitUs)
    (late : new.paceLimitUs < s.since (s.context c).holdStart) :
    (s.withSettings new).PaceAnswered c h rest x (s.retime new) := by
  have w : (s.withSettings new).PaceHeld c h rest x := ⟨w.active, w.service, w.slot, w.demand, w.hold⟩
  have aged : (s.withSettings new).StillHeld c h ((s.withSettings new).ageLines s.settings) := by
    have r := (s.withSettings new).ageLines_resettled s.settings
    have same := (s.withSettings new).ageLines_context s.settings c
    exact ⟨r.servesHeads, r.service c, r.headChecked c, by rw [same], by rw [same], r.slot h⟩
  have compared : (s.withSettings new).StillHeld c h (s.compared new) := aged.trans (aged.paceHeld w).decideAfresh
  have timedOut {r : State} (k : (s.withSettings new).StillHeld c h r) : r.headTimedOut c = true := by
    have held := k.paceHeld w
    refine State.headTimedOut_iff.mpr ⟨held.active, by simp [held.service], held.paced, ?_, ?_⟩
    · rw [k.served.settings]; exact fun h₀ => hp (.inl h₀)
    · rw [k.served.settings, k.holdStart, State.since_congr k.served.timebase]; exact late
  have turns : (s.withSettings new).PaceAnswered c h rest x (s.afterTurns new) := by
    refine foldl_turn (P := (s.withSettings new).StillHeld c h) (State.head_due_iff.mpr ⟨hp, timedOut compared⟩)
      (fun r i hi hne k => ?_) (fun r k => ?_) (fun r i hi k => ?_) compared
    · obtain ⟨c', rfl⟩ := State.due_is_head hm hi
      have hne : c' ≠ c := fun e => hne (congrArg _ e)
      exact k.trans ((k.paceHeld w).expire_other hne fun hin => hout c' hne ((k.served.service c').subset hin))
    · exact k.answered ((k.paceHeld w).expire ho (timedOut k))
    · obtain ⟨c', rfl⟩ := State.due_is_head hm hi
      exact k.later (r.expire_head_servesHeads c') (r.expire_keeps _).2
  have ordered := s.afterTurns_resettled new
  exact turns.later ordered.servesHeads (ordered.upholds [])

/-- A head that was not held PACE or LEAD for longer has not run out when the waits have been decided: a hold that
begins then has lasted no time. -/
theorem State.compared_early {c : Ctx}
    (h : ¬ ((s.context c).Paced ∧ new.paceLimitUs < s.since (s.context c).holdStart)) :
    (s.compared new).headTimedOut c = false := by
  have before := s.compared_resettled new
  have hset : (s.compared new).settings = new := before.keeps.settings
  have htime : (s.compared new).timebase = s.timebase := before.timebase
  have start := ((s.withSettings new).ageLines s.settings).decideAfresh_holdStart c
  rw [(s.withSettings new).ageLines_context s.settings c, ((s.withSettings new).ageLines_resettled s.settings).timebase]
    at start
  rw [Bool.eq_false_iff]
  intro hout
  obtain ⟨-, -, paced, -, late⟩ := State.headTimedOut_iff.mp hout
  rw [hset, State.since_congr htime] at late
  by_cases hold : ((s.compared new).context c).hold = (s.context c).hold
  · rw [State.compared, start, if_neg fun hn => hn.2 hold] at late
    exact h ⟨by rwa [Context.Paced, ← hold], late⟩
  · rw [State.compared, start, if_pos ⟨paced, hold⟩] at late
    simp [State.since, State.withSettings] at late

/-- No other Service Queue is served (R105). -/
theorem State.retime_service {c : Ctx} (hm : keptSetting s.settings.memTimeoutUs new.memTimeoutUs)
    (h : ¬ ((s.context c).Paced ∧ new.paceLimitUs < s.since (s.context c).holdStart)) :
    ((s.retime new).context c).service = (s.context c).service := by
  have turns : ((s.afterTurns new).context c).service = ((s.compared new).context c).service := by
    refine List.foldlRecOn (motive := fun r : State => (r.context c).service = ((s.compared new).context c).service)
      _ _ rfl fun r k i hi => ?_
    obtain ⟨c', rfl⟩ := State.due_is_head hm hi
    have hne : c' ≠ c := by
      rintro rfl
      have := (State.head_due_iff.mp hi).2
      rw [State.compared_early h] at this
      cases this
    rw [r.expire_head_service_of_ne hne, k]
  rw [(s.afterTurns_resettled new).service, turns, (s.compared_resettled new).service]
  rfl

theorem State.compared_stands {m : MemTag} {e : TrackEntry} (he : s.track m = some e) :
    (s.withSettings new).RequestStands m e (s.compared new) := by
  have before := s.compared_resettled new
  refine ⟨before.keeps, ?_⟩
  rw [before.track]
  exact congrArg (Option.map TrackEntry.undetached) he

/-- Under a new MEM_TIMEOUT_US a request in flight for longer is quarantined (R145). -/
theorem State.retime_quarantined {m : MemTag} {e : TrackEntry} (he : s.track m = some e) (hf : e.state = .inFlight)
    (hm : ¬ keptSetting s.settings.memTimeoutUs new.memTimeoutUs) (late : new.memTimeoutUs < s.since e.sent) :
    (s.withSettings new).RequestQuarantined m e (s.retime new) := by
  have timedOut {r : State} (k : (s.withSettings new).RequestStands m e r) : r.requestTimedOut m = true :=
    k.timedOut_iff.mpr ⟨hf, fun h₀ => hm (.inl h₀), late⟩
  have compared := State.compared_stands (new := new) he
  have turns : (s.withSettings new).RequestQuarantined m e (s.afterTurns new) :=
    foldl_turn (State.request_due_iff.mpr ⟨hm, timedOut compared⟩) (fun r i _ hne k => k.expire (.inl hne))
      (fun r k => k.expire_due (timedOut k)) (fun r i _ k => k.expire i) compared
  have ordered := (s.afterTurns_resettled new).aftermath
  exact turns.later (turns.stands.aftermath ordered) ordered.upholds

/-- No other request in flight is quarantined (R145). -/
theorem State.retime_stands {m : MemTag} {e : TrackEntry} (he : s.track m = some e)
    (early : s.since e.sent ≤ new.memTimeoutUs) : (s.withSettings new).RequestStands m e (s.retime new) := by
  have turns : (s.withSettings new).RequestStands m e (s.afterTurns new) := by
    refine List.foldlRecOn _ _ (State.compared_stands he) fun r k i _ => k.expire (.inr ?_)
    rw [Bool.eq_false_iff]
    exact fun h => Nat.not_lt.mpr early (k.timedOut_iff.mp h).2.2
  exact turns.aftermath (s.afterTurns_resettled new).aftermath

end SetTimers

theorem ownSetTimers_badValue {s : State} {ps : List Byte} (h : ¬ (25 ≤ argByte ps 0 ∧ argByte ps 0 ≤ 200)) :
    ownSetTimers ps s = s.refuse .badValue := if_neg h

theorem ownSetTimers_done {s : State} {ps : List Byte} (h : 25 ≤ argByte ps 0 ∧ argByte ps 0 ≤ 200) :
    ownSetTimers ps s = { state := s.retime (settingsOf ps), status := .ok } := if_pos h

/-- Settles O47: the event is the new settings, the ages, and the turns of the timers that have run out. -/
theorem setTimersWritesSettings : Obligations.SetTimersWritesSettings := by
  intro s mhz m₀ m₁ p₀ p₁ p₂ g₀ g₁ hw new kept since pace mem gather
  have hsince (v : BitVec 32) : s.since v = since v := s.since_eq v
  refine ⟨fun hout => ?_, fun hlo hhi => ?_⟩
  · refine congrArg _ (State.command_refused hw rfl (ownSetTimers_badValue fun h => ?_))
    have h : 25 ≤ mhz.toNat ∧ mhz.toNat ≤ 200 := h
    omega
  obtain ⟨keeps, upholds⟩ := s.retime_keeps (new := new)
  have hexec : exec (.setTimers g₁) s
      = .next { s.retime new with link := s.link.answered g₁ .ok [] } :=
    congrArg _ (State.command_done hw rfl (ownSetTimers_done ⟨hlo, hhi⟩))
  refine ⟨s.retime new, hexec, keeps.settings, keeps.timebase, keeps.usLength, upholds.responses,
    fun hp hm => ?_, fun hm => ?_, fun hm hp => ⟨?_, fun c hc => ?_⟩,
    fun hm m e he hf => ⟨fun late => ?_, fun early => ?_⟩⟩
  · have aged := State.retime_resettled hp hm
    have resettled := ((s.withSettings new).ageLines_resettled s.settings).trans aged
    have choices : (s.retime new).choices = s.choices + 1 := by rw [resettled.rest]; rfl
    rw [choices]
    exact ⟨fun _ => resettled, fun hg => ⟨resettled.rest, fun c l hl ho ha =>
      (aged.contexts c).issue_mem (State.ageLines_issued hg hl ho ha)⟩⟩
  · have served := State.retime_servesHeads (s := s) (new := new) hm
    exact ⟨served.tracker, served.iq, served.links⟩
  · intro c h rest x n hact _ hs hx ho hck hn hlt hhold hout late
    have demand : 0 < s.demand c := by
      simp only [State.demand, hck, State.head_of_service hs hx, hn, if_true, Option.getD_some]
      omega
    have w : s.PaceHeld c h rest x := ⟨hact, hs, hx, demand, hhold⟩
    have answered := w.retime ho hout hm hp (by rw [hsince]; exact late)
    exact ⟨answered.slot, answered.responses, answered.service, (answered.served.state c).trans hact,
      answered.served.take c, answered.served.progress c, answered.record⟩
  · exact State.retime_service hm (by rw [hsince]; exact hc)
  · obtain ⟨stands, record⟩ := State.retime_quarantined he hf hm (by rw [hsince]; exact late)
    obtain ⟨y, hy, hk, hsp, ho, hst, ht⟩ := stands.entry
    exact ⟨y, hy, hst, hk, hsp, ho, ht, record⟩
  · obtain ⟨y, hy, -, -, -, hst, -⟩ := (State.retime_stands he (by rw [hsince]; exact early)).entry
    exact ⟨y, hy, hst.trans hf⟩

end Sys2Proof.Machine
end

section
/-! The pacing law (O57): what every operation keeps of the links, the cycle check of SET_PACING, and that every command
keeps R95 and R96. -/

namespace Sys2Proof.Machine

open Sys2Proof

/-! ### The law in three parts (R95, R96) -/

/-- What SET_PACING wrote of a link: all but its state (R110). -/
def PacingLink.tie (l : PacingLink) : PacingLink := { l with state := .broken }

/-- The link of `f` is ARMED though its leader is FAULTED. -/
def State.ArmedToFaulted (s : State) (f : Ctx) : Prop :=
  ∃ l, s.pacing f = some l ∧ l.state = .armed ∧ (s.context l.leader).state = .faulted

/-- No path of links returns to its start (R96). -/
def State.Acyclic (s : State) : Prop := ∀ (f : Ctx) (n : Nat), 0 < n → n ≤ 8 → s.ahead n f ≠ some f

theorem State.pacingLaw_iff {s : State} : s.PacingLaw ↔
    (∀ f l, s.pacing f = some l → l.limitOk = true) ∧ (∀ f, ¬ s.ArmedToFaulted f) ∧ s.Acyclic := by
  constructor
  · rintro ⟨links, acyclic⟩
    exact ⟨fun f l hl => (links f l hl).1, fun f ⟨l, hl, ha, hf⟩ => (links f l hl).2 ha hf, acyclic⟩
  · rintro ⟨limits, armed, acyclic⟩
    exact ⟨fun f l hl => ⟨limits f l hl, fun ha hf => armed f ⟨l, hl, ha, hf⟩⟩, acyclic⟩

/-! ### Paths of links (R96) -/

theorem State.ahead_succ {s : State} {c : Ctx} {l : PacingLink} (h : s.pacing c = some l) (n : Nat) :
    s.ahead (n + 1) c = s.ahead n l.leader := by simp [State.ahead, h]

theorem State.ahead_succ_none {s : State} {c : Ctx} (h : s.pacing c = none) (n : Nat) : s.ahead (n + 1) c = none := by
  simp [State.ahead, h]

theorem State.ahead_add (s : State) (m n : Nat) (c : Ctx) : s.ahead (m + n) c = (s.ahead m c).bind (s.ahead n) := by
  induction m generalizing c with
  | zero => rw [Nat.zero_add]; rfl
  | succ m ih =>
    rw [Nat.succ_add]
    cases h : s.pacing c with
    | none => rw [State.ahead_succ_none h, State.ahead_succ_none h]; rfl
    | some l => rw [State.ahead_succ h, State.ahead_succ h, ih]

/-- A cycle is a cycle from each of its contexts. -/
theorem State.ahead_rotate {s : State} {f g : Ctx} {i n : Nat} (cycle : s.ahead n g = some g)
    (reach : s.ahead i g = some f) (hi : i ≤ n) : s.ahead n f = some f := by
  have back : s.ahead (n - i) f = some g := by
    have whole := s.ahead_add i (n - i) g
    rw [Nat.add_sub_cancel' hi, cycle, reach] at whole
    exact whole.symm
  calc s.ahead n f = s.ahead (n - i + i) f := by rw [Nat.sub_add_cancel hi]
    _ = (s.ahead (n - i) f).bind (s.ahead i) := s.ahead_add _ _ _
    _ = some f := by rw [back]; exact reach

/-- Where only the states of links differ, a link stands with its leader and its limits in both tables. -/
theorem State.linked_of_tie {s t : State} {f : Ctx} {l : PacingLink}
    (h : (t.pacing f).map PacingLink.tie = (s.pacing f).map PacingLink.tie) (hl : t.pacing f = some l) :
    ∃ m, s.pacing f = some m ∧ m.leader = l.leader ∧ m.limitOk = l.limitOk := by
  rw [hl, Option.map_some, eq_comm, Option.map_eq_some_iff] at h
  obtain ⟨m, hm, e⟩ := h
  have leader : m.tie.leader = l.tie.leader := by rw [e]
  have limit : m.tie.limitOk = l.tie.limitOk := by rw [e]
  exact ⟨m, hm, leader, limit⟩

/-- Paths depend on the leaders alone. -/
theorem State.ahead_congr {s t : State} (h : ∀ f, (t.pacing f).map PacingLink.tie = (s.pacing f).map PacingLink.tie)
    (n : Nat) (c : Ctx) : t.ahead n c = s.ahead n c := by
  induction n generalizing c with
  | zero => rfl
  | succ n ih =>
    cases ht : t.pacing c with
    | none =>
      have hs := h c
      rw [ht, Option.map_none, eq_comm, Option.map_eq_none_iff] at hs
      rw [State.ahead_succ_none ht, State.ahead_succ_none hs]
    | some l =>
      obtain ⟨m, hm, leader, -⟩ := State.linked_of_tie (h c) ht
      rw [State.ahead_succ ht, State.ahead_succ hm, leader, ih]

/-- A path that meets `f` nowhere before its end does not use the link written for `f`. -/
theorem State.ahead_setPacing {s : State} {f : Ctx} {x : Option PacingLink} {n : Nat} {g : Ctx}
    (h : ∀ i < n, (s.setPacing f x).ahead i g ≠ some f) : (s.setPacing f x).ahead n g = s.ahead n g := by
  induction n generalizing g with
  | zero => rfl
  | succ n ih =>
    have hg : f ≠ g := fun e => h 0 (Nat.succ_pos n) (congrArg some e.symm)
    have own : (s.setPacing f x).pacing g = s.pacing g := by rw [State.pacing_setPacing, if_neg hg]
    cases hl : s.pacing g with
    | none => rw [State.ahead_succ_none (own.trans hl), State.ahead_succ_none hl]
    | some l =>
      rw [State.ahead_succ (own.trans hl), State.ahead_succ hl]
      exact ih fun i hi e => h (i + 1) (Nat.succ_lt_succ hi) (by rw [State.ahead_succ (own.trans hl), e])

/-- A written link closes no cycle but through its follower. -/
theorem State.Acyclic.setPacing {s : State} (h : s.Acyclic) {f : Ctx} {x : Option PacingLink}
    (hf : ∀ n, 0 < n → n ≤ 8 → (s.setPacing f x).ahead n f ≠ some f) : (s.setPacing f x).Acyclic := by
  intro g n hpos hle cycle
  by_cases through : ∃ i < n, (s.setPacing f x).ahead i g = some f
  · obtain ⟨i, hi, reach⟩ := through
    exact hf n hpos hle (State.ahead_rotate cycle reach hi.le)
  · rw [State.ahead_setPacing fun i hi e => through ⟨i, hi, e⟩] at cycle
    exact h g n hpos hle cycle

/-! ### The law of a written link (R96, R97, R98) -/

/-- A written link that meets the law alone, with no cycle through its follower, keeps the law. -/
theorem State.PacingLaw.setPacing {s : State} (h : s.PacingLaw) {f : Ctx} {x : Option PacingLink}
    (hx : ∀ l, x = some l → l.limitOk = true ∧ (l.state = .armed → (s.context l.leader).state ≠ .faulted))
    (hf : ∀ n, 0 < n → n ≤ 8 → (s.setPacing f x).ahead n f ≠ some f) : (s.setPacing f x).PacingLaw := by
  obtain ⟨links, acyclic⟩ := h
  refine ⟨fun g l hl => ?_, State.Acyclic.setPacing acyclic hf⟩
  rw [State.pacing_setPacing] at hl
  split at hl
  · exact hx l hl
  · exact links g l hl

theorem State.pacingCheck_none {s : State} {f : Ctx} {l : PacingLink} (h : s.pacingCheck f l = none) :
    (s.setPacing f (some l)).pathReaches f 8 l.leader = false ∧ l.limitOk = true := by
  unfold State.pacingCheck at h
  split at h
  · cases h
  · split at h
    · cases h
    · split at h
      · cases h
      · rename_i reaches limit
        exact ⟨by simpa using reaches, by simpa using limit⟩

/-- The cycle check of an accepted SET_PACING: no path of the new table returns to the follower (R96). -/
theorem State.pacingCheck_noCycle {s : State} {f : Ctx} {l : PacingLink} (h : s.pacingCheck f l = none) (n : Nat)
    (hpos : 0 < n) (hle : n ≤ 8) : (s.setPacing f (some l)).ahead n f ≠ some f := by
  obtain ⟨m, rfl⟩ := Nat.exists_eq_succ_of_ne_zero hpos.ne'
  intro cycle
  have again : (s.setPacing f (some l)).setPacing f (some l) = s.setPacing f (some l) := by simp [State.setPacing]
  have reaches := ((s.setPacing f (some l)).pathReaches_setPacing f (some l) 8 l.leader).mpr
    ⟨m, hle, by rwa [State.ahead_succ (s.pacing_setPacing_self f (some l))] at cycle⟩
  rw [again, (State.pacingCheck_none h).1] at reaches
  cases reaches

/-! ### Operations that keep the law -/

/-- From `s` to `t` every link kept its leader, gap and lead limit, and no link came to be ARMED to a FAULTED leader. -/
structure State.KeepsPacing (s t : State) : Prop where
  ties : ∀ f, (t.pacing f).map PacingLink.tie = (s.pacing f).map PacingLink.tie
  armed : ∀ f, t.ArmedToFaulted f → s.ArmedToFaulted f

theorem State.PacingLaw.kept {s t : State} (h : s.PacingLaw) (k : s.KeepsPacing t) : t.PacingLaw := by
  obtain ⟨limits, armed, acyclic⟩ := State.pacingLaw_iff.mp h
  refine State.pacingLaw_iff.mpr ⟨fun f l hl => ?_, fun f e => armed f (k.armed f e), fun f n => ?_⟩
  · obtain ⟨m, hm, -, limit⟩ := State.linked_of_tie (k.ties f) hl
    exact limit ▸ limits f m hm
  · rw [State.ahead_congr k.ties]
    exact acyclic f n

theorem State.KeepsPacing.refl (s : State) : s.KeepsPacing s := ⟨fun _ => rfl, fun _ h => h⟩

theorem State.KeepsPacing.trans {s t u : State} (h : s.KeepsPacing t) (k : t.KeepsPacing u) : s.KeepsPacing u :=
  ⟨fun f => (k.ties f).trans (h.ties f), fun f e => h.armed f (k.armed f e)⟩

theorem State.KeepsPacing.ite {s t : State} (h : s.KeepsPacing t) (p : Prop) [Decidable p] :
    s.KeepsPacing (if p then t else s) := by
  split
  · exact h
  · exact .refl s

/-- What keeps the links and lets no context enter FAULTED keeps the law. -/
theorem State.KeepsPacing.of_links {s t : State} (hl : t.links = s.links)
    (hf : ∀ c, (t.context c).state = .faulted → (s.context c).state = .faulted) : s.KeepsPacing t := by
  have pacing (f : Ctx) : t.pacing f = s.pacing f := by simp only [State.pacing, hl]
  exact ⟨fun f => by rw [pacing], fun f ⟨l, h, ha, e⟩ => ⟨l, pacing f ▸ h, ha, hf _ e⟩⟩

theorem State.KeepsPacing.of_eq {s t : State} (hc : t.ctx = s.ctx) (hl : t.links = s.links) : s.KeepsPacing t :=
  .of_links hl fun c e => by simpa only [State.context, hc] using e

theorem State.Quiet.keepsPacing {s t : State} (h : s.Quiet t) (hl : t.links = s.links) : s.KeepsPacing t :=
  .of_links hl fun c e => (h c).state ▸ e

theorem State.Resettled.keepsPacing {s t : State} (h : s.Resettled t) : s.KeepsPacing t := h.quiet.keepsPacing h.links

theorem State.Serves.keepsPacing {s t : State} (h : s.Serves t) : s.KeepsPacing t where
  ties := fun f => by
    rcases h.links f with e | ⟨l, hl, e⟩
    · rw [e]
    · rw [e, hl]; rfl
  armed := fun _ ⟨l, hl, ha, hf⟩ => ⟨l, h.armed hl ha, ha, h.state l.leader ▸ hf⟩

theorem State.KeepsPacing.settle {s t : State} (h : s.KeepsPacing t) : s.KeepsPacing t.settle :=
  h.trans t.settle_resettled.keepsPacing

/-- Writing the record of a context that does not enter FAULTED keeps the law. -/
theorem State.setContext_keepsPacing (s : State) {c : Ctx} {x : Context}
    (h : x.state = .faulted → (s.context c).state = .faulted) : s.KeepsPacing (s.setContext c x) :=
  .of_links rfl fun c' e => by
    rw [State.context_setContext] at e
    split at e
    · rename_i hc; exact hc ▸ h e
    · exact e

/-! ### Walks that launch, fault, end or are aborted (R23, R24, R28, R30, R32, R34) -/

/-- Entry to FAULTED breaks the links of the context, so that none stays ARMED to it (R34, R106). -/
theorem State.faultContext_keepsPacing (s : State) (c : Ctx) (why : FaultReason) :
    s.KeepsPacing (s.faultContext c why) := by
  have answered := s.answerAll_serves c .contextFaulted
  have broken := (s.faulting c why).breakLinks_serves c why.toReason
  rw [s.faultContext_eq]
  refine ⟨fun f => (broken.keepsPacing.ties f).trans (answered.keepsPacing.ties f), fun f ⟨l, hl, ha, hf⟩ => ?_⟩
  have spared : c ≠ l.leader := fun e => by
    have := (s.faulting c why).breakLinks_broken c why.toReason hl e.symm
    rw [ha] at this
    cases this
  refine ⟨l, answered.armed (broken.armed hl ha) ha, ha, ?_⟩
  rwa [broken.state, State.faulting, State.context_setContext_of_ne _ spared, answered.state] at hf

/-- A link re-arms only while its leader is not FAULTED (R109). -/
theorem State.rearm_keepsPacing (s : State) (c : Ctx) : s.KeepsPacing (s.rearm c) := by
  unfold State.rearm
  split
  · exact .refl s
  · rename_i l hl
    split
    · rename_i live
      refine ⟨fun f => ?_, fun f ⟨m, hm, ha, hf⟩ => ?_⟩
      · rw [State.pacing_setPacing]; split
        · rename_i e; rw [← e, hl]; rfl
        · rfl
      · rw [State.pacing_setPacing] at hm; split at hm
        · obtain rfl := Option.some.inj hm
          exact absurd hf live.2
        · exact ⟨m, hm, ha, hf⟩
    · exact .refl s

theorem State.launch_keepsPacing (s : State) (c : Ctx) (i : DescIx) : s.KeepsPacing (s.launch c i) := by
  cases h : s.launchCheck (s.desc i) with
  | none =>
    rw [State.launch_accepted h]
    exact ((s.setContext_keepsPacing fun e => by cases e).trans (State.rearm_keepsPacing _ c)).trans
      (State.promote_serves _ c).keepsPacing
  | some why =>
    rw [State.launch_refused h]
    exact (s.post_serves _).keepsPacing.trans (State.faultContext_keepsPacing _ c _)

theorem State.launchNext_keepsPacing (s : State) (c : Ctx) : s.KeepsPacing (s.launchNext c) := by
  cases h : (s.context c).launchQ with
  | nil => rw [State.launchNext_nil h]; exact .refl s
  | cons i q =>
    rw [State.launchNext_cons h]
    exact (s.setContext_keepsPacing (x := { s.context c with launchQ := q }) fun e => e).trans
      (State.launch_keepsPacing _ c i)

theorem State.completeDrain_keepsPacing (s : State) (c : Ctx) : s.KeepsPacing (s.completeDrain c) := by
  unfold State.completeDrain
  dsimp only
  have reported := State.KeepsPacing.ite (s.post_serves (s.walkDoneRecord c)).keepsPacing
    (((s.context c).snapshot.map Descriptor.doneEvent).getD false = true)
  generalize (if ((s.context c).snapshot.map Descriptor.doneEvent).getD false = true then s.post (s.walkDoneRecord c)
    else s) = r at reported
  refine reported.trans ?_
  split
  · exact r.launch_keepsPacing c _
  · split
    · exact (r.setContext_keepsPacing fun e => by cases e).trans (State.answerAll_serves _ c _).keepsPacing
    · exact r.launchNext_keepsPacing c

theorem State.drainIfDone_keepsPacing (s : State) (c : Ctx) : s.KeepsPacing (s.drainIfDone c) :=
  (s.completeDrain_keepsPacing c).ite _

theorem State.discardReadAhead_keepsPacing (s : State) (c : Ctx) : s.KeepsPacing (s.discardReadAhead c) :=
  (s.discardReadAhead_quiet c).keepsPacing rfl

theorem State.endWalk_keepsPacing (s : State) (c : Ctx) (why : EndCause) : s.KeepsPacing (s.endWalk c why) := by
  have ended : s.KeepsPacing (s.setContext c ((s.context c).ended why)) :=
    s.setContext_keepsPacing fun e => by cases e
  refine State.KeepsPacing.trans ?_ (State.drainIfDone_keepsPacing _ c)
  exact ended.trans ((State.discardReadAhead_keepsPacing _ c).ite _)

theorem State.cleared_keepsPacing (s : State) (c : Ctx) : s.KeepsPacing (s.cleared c) :=
  ((((s.discardLines_quiet c).trans (State.detach_quiet _ _ _)).keepsPacing rfl).trans
    (State.discardReadAhead_keepsPacing _ c)).trans (State.answerAll_serves _ c _).keepsPacing

theorem State.abort_keepsPacing (s : State) (c : Ctx) (breaks purge : Bool) :
    s.KeepsPacing (s.abort c breaks purge) := by
  rw [s.abort_eq]
  exact ((s.cleared_keepsPacing c).trans ((State.breakLinks_serves _ c _).keepsPacing.ite _)).trans
    (State.setContext_keepsPacing _ fun e => by cases e)

/-! ### Memory's answers and timeouts (R65, R66, R90, R145) -/

theorem State.lineFailed_keepsPacing (s : State) (c : Ctx) (n : BitVec 16) (l : Nat) (b : Bool) (why : FaultReason)
    (r : Reason) : s.KeepsPacing (s.lineFailed c n l b why r) :=
  (s.post_serves _).keepsPacing.trans (State.KeepsPacing.ite
    ((((State.discardLines_quiet _ c).trans (State.detach_quiet _ _ _)).keepsPacing rfl).trans
      (State.faultContext_keepsPacing _ c why)) _)

theorem State.setEntry_keepsPacing (s : State) (c : Ctx) (q : Nat) (st : EntryState) :
    s.KeepsPacing (s.setEntry c q st) := s.setContext_keepsPacing fun e => e

theorem State.readFailed_keepsPacing (s : State) (c : Ctx) (n : BitVec 16) (q : Nat) (r : Reason) :
    s.KeepsPacing (s.readFailed c n q r) := by
  unfold State.readFailed
  split
  · exact .refl s
  · exact (s.setEntry_keepsPacing c q _).trans (State.post_serves _ _).keepsPacing

theorem State.readOkay_keepsPacing (s : State) (c : Ctx) (q : Nat) (data : List Byte) :
    s.KeepsPacing (s.readOkay c q data) := by
  unfold State.readOkay
  split
  · exact .refl s
  · split <;> exact s.setEntry_keepsPacing c q _

theorem State.hostOkay_keepsPacing (s : State) (u : HostTag) (data : List Byte) :
    s.KeepsPacing (s.hostOkay u data) := by
  unfold State.hostOkay
  split
  · exact .refl s
  · dsimp only
    split
    · exact .refl s
    · exact State.KeepsPacing.trans (t := s.setSlot u _) (.of_eq rfl rfl) (State.answer_serves _ u none).keepsPacing

theorem State.deliver_keepsPacing (s : State) (e : TrackEntry) (st : MemStatus) (data : List Byte) :
    s.KeepsPacing (s.deliver e st data) := by
  unfold State.deliver
  split
  · exact s.hostOkay_keepsPacing _ _
  · exact (s.answer_serves _ _).keepsPacing
  · split
    · exact .refl s
    · exact s.readOkay_keepsPacing _ _ _
  · split
    · exact .refl s
    · exact s.readFailed_keepsPacing _ _ _ _
  · split
    · exact .refl s
    · exact s.drainIfDone_keepsPacing _
  · exact s.lineFailed_keepsPacing _ _ _ _ _ _

theorem State.setTrack_keepsPacing (s : State) (m : MemTag) (x : Option TrackEntry) : s.KeepsPacing (s.setTrack m x) :=
  .of_eq rfl rfl

theorem State.response_keepsPacing (s : State) (m : MemTag) (st : MemStatus) (data : List Byte) :
    s.KeepsPacing (s.response m st data) := by
  unfold State.response
  split
  · exact .refl s
  · split
    · exact (s.post_serves _).keepsPacing
    · refine (s.setTrack_keepsPacing m none).trans ?_
      dsimp only
      split
      · exact (State.post_serves _ _).keepsPacing
      · exact (State.deliver_keepsPacing _ _ st data).settle

theorem State.tellTimeout_keepsPacing (s : State) (e : TrackEntry) : s.KeepsPacing (s.tellTimeout e) := by
  unfold State.tellTimeout
  split
  · exact (s.answer_serves _ _).keepsPacing
  · split
    · exact .refl s
    · exact s.readFailed_keepsPacing _ _ _ _
  · exact s.lineFailed_keepsPacing _ _ _ _ _ _

theorem State.quarantine_keepsPacing (s : State) (m : MemTag) (e : TrackEntry) : s.KeepsPacing (s.quarantine m e) := by
  unfold State.quarantine
  dsimp only
  refine ((s.setTrack_keepsPacing m (some { e with state := .quarantined })).trans
    (State.post_serves _ (s.trackRecord .memoryTimeout m e)).keepsPacing).trans ?_
  generalize (s.setTrack m (some { e with state := .quarantined })).post (s.trackRecord .memoryTimeout m e) = r
  split
  · refine State.KeepsPacing.trans (t := { r with choices := s.choices + 1 }) (.of_eq rfl rfl) ?_
    split
    · exact (State.post_serves _ _).keepsPacing.trans (State.tellTimeout_keepsPacing _ e)
    · exact (State.tellTimeout_keepsPacing _ e).trans (State.post_serves _ _).keepsPacing
  · exact r.tellTimeout_keepsPacing e

theorem State.timeoutRequest_keepsPacing (s : State) (m : MemTag) : s.KeepsPacing (s.timeoutRequest m) := by
  unfold State.timeoutRequest
  split
  · exact (s.quarantine_keepsPacing m _).ite _
  · exact .refl s

/-! ### Taken elements, host requests and admissions (R35, R38, R126) -/

theorem State.afterMove_keepsPacing (s : State) (c : Ctx) (k : Taking) : s.KeepsPacing (s.afterMove c k) :=
  ((s.moveElement_quiet c k).trans (State.advanceTake_quiet _ c k)).keepsPacing
    (State.links_ext (s.afterMove_pacing c k))

theorem State.afterTake_keepsPacing (s : State) (c : Ctx) : s.KeepsPacing (s.afterTake c) := by
  have answered := (s.finishHead_serves c (s.headReason c)).keepsPacing.ite (s.demand c = 0)
  unfold State.afterTake
  dsimp only
  generalize (if s.demand c = 0 then s.finishHead c (s.headReason c) else s) = r at answered
  have cut (why : HostReason) (e : EndCause) : r.KeepsPacing ((r.cutHead c why).endWalk c e) :=
    (r.cutHead_serves c why).keepsPacing.trans (State.endWalk_keepsPacing _ c e)
  refine answered.trans ?_
  split
  · exact cut _ _
  · split
    · exact cut _ _
    · exact (r.promote_serves c).keepsPacing

theorem State.elementTake_keepsPacing (s : State) (c : Ctx) : s.KeepsPacing (s.elementTake c) := by
  unfold State.elementTake
  split
  · exact (State.KeepsPacing.refl s).settle
  · split
    · exact ((s.afterMove_keepsPacing c _).trans (State.afterTake_keepsPacing _ c)).settle
    · exact (State.KeepsPacing.refl s).settle

theorem State.walkAccess_keepsPacing (s : State) (t : HostTag) (c : Ctx) : s.KeepsPacing (s.walkAccess t c) := by
  have queued (q : List HostTag) : s.KeepsPacing (s.setContext c { s.context c with service := q }) :=
    s.setContext_keepsPacing fun e => e
  unfold State.walkAccess
  dsimp only
  split
  · exact (s.answer_serves t _).keepsPacing
  · exact (s.answer_serves t _).keepsPacing
  · exact (queued _).trans (State.promote_serves _ c).keepsPacing
  · exact queued _

theorem State.arrival_keepsPacing (s : State) (r : HostRequest) : s.KeepsPacing (s.arrival r) := by
  have accepted : s.KeepsPacing (s.accept r) := by
    have slot (x : HostSlot) : s.KeepsPacing (s.setSlot r.tag (some x)) := .of_eq rfl rfl
    unfold State.accept
    split
    · exact (slot _).trans (State.answer_serves _ _ _).keepsPacing
    · split
      · exact (slot _).trans (State.answer_serves _ _ _).keepsPacing
      · exact (slot _).trans (State.walkAccess_keepsPacing _ _ _)
      · exact (slot _).trans ((State.passArrival_quiet _ r).keepsPacing rfl)
  unfold State.arrival
  split
  · exact .refl s
  · split
    · exact (s.post_serves _).keepsPacing
    · exact accepted.settle

theorem State.passthroughAdmission_keepsPacing (s : State) : s.KeepsPacing s.passthroughAdmission := by
  have admitted (u : HostTag) (x : HostSlot) : s.KeepsPacing (s.admitPassthrough u x) := by
    refine (s.admitPassthrough_quiet u x).keepsPacing ?_
    unfold State.admitPassthrough
    split <;> rfl
  unfold State.passthroughAdmission
  split
  · split
    · exact (admitted _ _).settle
    · exact .refl s
  · exact .refl s

theorem State.enqueue_keepsPacing (s : State) (p : Fin 17) (e : IqEntry) : s.KeepsPacing (s.enqueue p e) :=
  .of_eq rfl rfl

theorem State.readAheadAdmission_keepsPacing (s : State) (c : Ctx) : s.KeepsPacing (s.readAheadAdmission c) := by
  unfold State.readAheadAdmission
  split
  · split
    · exact ((s.enqueue_keepsPacing _ _).trans (State.setEntry_keepsPacing _ c _ _)).settle
    · exact .refl s
  · exact .refl s

theorem State.gatherLineAdmission_keepsPacing (s : State) (c : Ctx) : s.KeepsPacing (s.gatherLineAdmission c) := by
  unfold State.gatherLineAdmission
  split
  · split
    · exact ((s.enqueue_keepsPacing _ _).trans ((State.dropLine_quiet _ c _).keepsPacing rfl)).settle
    · exact .refl s
  · exact .refl s

theorem State.issueLines_keepsPacing (s : State) (c : Ctx) (p : GatherLine → Bool) :
    s.KeepsPacing (s.issueLines c p) := s.setContext_keepsPacing fun e => e

theorem State.expire_keepsPacing (s : State) (i : Timer) : s.KeepsPacing (s.expire i) := by
  cases i with
  | head c =>
    exact ((s.finishEarly_serves c _).keepsPacing.trans (State.decideAfresh_resettled _).keepsPacing).ite _
  | request m => exact ((s.timeoutRequest_keepsPacing m).trans (State.decideAfresh_resettled _).keepsPacing).ite _

theorem State.retime_keepsPacing (s : State) (new : Settings) : s.KeepsPacing (s.retime new) := by
  have set : s.KeepsPacing (s.withSettings new) := .of_eq rfl rfl
  have turns : (s.compared new).KeepsPacing (s.afterTurns new) :=
    List.foldlRecOn (motive := fun r : State => (s.compared new).KeepsPacing r) _ _ (.refl _)
      fun r k i _ => k.trans (r.expire_keepsPacing i)
  exact ((set.trans (s.compared_resettled new).keepsPacing).trans turns).trans
    (s.afterTurns_resettled new).keepsPacing

/-! ### The commands of the Management Link -/

/-- A command keeps what its owner keeps. -/
theorem State.PacingLaw.command {s : State} (h : s.PacingLaw) (k : Command) (b : Byte)
    {owner : List Byte → State → Reply} (ho : ∀ ps, (owner ps s).state.PacingLaw) :
    (s.command k b owner).PacingLaw := by
  unfold State.command
  split
  · exact (ho _).kept (.of_eq rfl rfl)
  · exact h

theorem ownQueueWalk_keepsPacing (ps : List Byte) (s : State) : s.KeepsPacing (ownQueueWalk ps s).state := by
  unfold ownQueueWalk
  split
  · dsimp only
    split
    · exact (s.launch_keepsPacing _ _).settle
    · split
      · exact s.setContext_keepsPacing fun e => e
      · exact .refl s
  · exact .refl s

theorem ownEndWalk_keepsPacing (ps : List Byte) (s : State) : s.KeepsPacing (ownEndWalk ps s).state := by
  unfold ownEndWalk
  split
  · exact .refl s
  · split
    · exact (((s.finishHead_serves _ _).keepsPacing.ite _).trans (State.endWalk_keepsPacing _ _ _)).settle
    · exact .refl s

theorem ownAbortWalk_keepsPacing (ps : List Byte) (s : State) : s.KeepsPacing (ownAbortWalk ps s).state := by
  unfold ownAbortWalk
  split
  · exact .refl s
  · split
    · exact ((s.abort_keepsPacing _ _ _).trans (State.launchNext_keepsPacing _ _)).settle
    · exact .refl s

theorem ownClearFault_keepsPacing (ps : List Byte) (s : State) : s.KeepsPacing (ownClearFault ps s).state := by
  unfold ownClearFault
  split
  · exact .refl s
  · split
    · exact ((s.setContext_keepsPacing fun e => by cases e).trans (State.launchNext_keepsPacing _ _)).settle
    · exact .refl s

theorem ownFlushLines_keepsPacing (ps : List Byte) (s : State) : s.KeepsPacing (ownFlushLines ps s).state := by
  unfold ownFlushLines
  split
  · exact .refl s
  · rename_i c _
    exact (s.setContext_keepsPacing (x := (s.context c).issueAll) fun e => e).settle

theorem ownSetTimers_keepsPacing (ps : List Byte) (s : State) : s.KeepsPacing (ownSetTimers ps s).state := by
  unfold ownSetTimers
  split
  · exact s.retime_keepsPacing _
  · exact .refl s

/-- SOFT_RESET arms every link, once no context is FAULTED (R110). -/
theorem State.softly_keepsPacing (s : State) : s.KeepsPacing s.softly := by
  have all := s.abortAll_abortedAmong
  refine ⟨fun f => ?_, fun f ⟨l, _, _, hf⟩ => ?_⟩
  · rw [State.softly, State.post_pacing, State.armAll_pacing, all.pacing, Option.map_map]
    rfl
  · rw [State.softly, State.post_context, State.armAll_context, all.contexts, if_pos (mem_allCtx _)] at hf
    cases hf

theorem ownSoftReset_keepsPacing (ps : List Byte) (s : State) : s.KeepsPacing (ownSoftReset ps s).state :=
  s.softly_keepsPacing.settle

/-- A new link is ARMED only to a leader that is not FAULTED (R97). -/
theorem State.newLink_armed (s : State) {ps : List Byte} {c : Ctx} (h : (s.newLink ps c).state = .armed) :
    (s.context c).state ≠ .faulted := fun hf => by simp [State.newLink, hf] at h

/-- An accepted SET_PACING has met the checks of R96, and its link is ARMED only to a leader that is not FAULTED
(R97). -/
theorem State.PacingLaw.setPacingCommand {s : State} (h : s.PacingLaw) (ps : List Byte) :
    (ownSetPacing ps s).state.PacingLaw := by
  unfold ownSetPacing
  split
  · rename_i f leader _ _
    split
    · exact h
    · rename_i accepted
      have written : (s.setPacing f (some (s.newLink ps leader))).PacingLaw := by
        refine h.setPacing (fun l e => ?_) (State.pacingCheck_noCycle accepted)
        obtain rfl := Option.some.inj e
        exact ⟨(State.pacingCheck_none accepted).2, s.newLink_armed⟩
      exact written.kept (State.promote_serves _ f).keepsPacing.settle
  · exact h

/-- A removed link leaves its follower at the end of its chain (R98). -/
theorem State.PacingLaw.clearPacingCommand {s : State} (h : s.PacingLaw) (ps : List Byte) :
    (ownClearPacing ps s).state.PacingLaw := by
  unfold ownClearPacing
  split
  · exact h
  · rename_i f _
    have removed : (s.setPacing f none).PacingLaw := by
      refine h.setPacing (fun l e => by cases e) fun n hpos _ => ?_
      obtain ⟨m, rfl⟩ := Nat.exists_eq_succ_of_ne_zero hpos.ne'
      rw [State.ahead_succ_none (s.pacing_setPacing_self f none)]
      nofun
    exact removed.kept (State.KeepsPacing.refl _).settle

/-! ### The owners and events that touch no link -/

theorem State.putDesc_links (s : State) (put : Option (DescIx × Descriptor)) : (s.putDesc put).links = s.links := by
  unfold State.putDesc; split <;> rfl

theorem State.writeDescEnd_links (s : State) (b : Byte) : (s.writeDescEnd b).links = s.links := by
  unfold State.writeDescEnd
  split
  · split
    · rfl
    · exact s.putDesc_links _
  · rfl

theorem State.linkByte_links (s : State) (b : Byte) : (s.linkByte b).links = s.links := by
  unfold State.linkByte
  dsimp only
  split
  · rfl
  · rfl
  · rfl
  · rfl
  · split
    · rfl
    · split <;> rfl
  · split
    · split
      · rfl
      · exact s.putDesc_links _
    · split <;> rfl

theorem State.frameBegin_links (s : State) : s.frameBegin.links = s.links := by
  unfold State.frameBegin
  split
  · rfl
  · split <;> rfl

theorem ownReadDesc_links (ps : List Byte) (s : State) : (ownReadDesc ps s).state.links = s.links := by
  unfold ownReadDesc; split <;> rfl

theorem ownClearDesc_links (ps : List Byte) (s : State) : (ownClearDesc ps s).state.links = s.links := by
  unfold ownClearDesc; split <;> rfl

theorem ownSetAperture_links (ps : List Byte) (s : State) : (ownSetAperture ps s).state.links = s.links := by
  unfold ownSetAperture
  split
  · split <;> rfl
  · rfl

theorem ownReadAperture_links (ps : List Byte) (s : State) : (ownReadAperture ps s).state.links = s.links := by
  unfold ownReadAperture; split <;> rfl

theorem ownReadContext_links (ps : List Byte) (s : State) : (ownReadContext ps s).state.links = s.links := by
  unfold ownReadContext; split <;> rfl

theorem ownReadPacing_links (ps : List Byte) (s : State) : (ownReadPacing ps s).state.links = s.links := by
  unfold ownReadPacing; split <;> rfl

theorem ownPopEvent_links (ps : List Byte) (s : State) : (ownPopEvent ps s).state.links = s.links := by
  unfold ownPopEvent
  split
  · rfl
  · unfold State.removeOldest; split <;> rfl

theorem ownPeekEvent_links (ps : List Byte) (s : State) : (ownPeekEvent ps s).state.links = s.links := by
  unfold ownPeekEvent; split <;> rfl

theorem ownSetAttentionMask_links (ps : List Byte) (s : State) : (ownSetAttentionMask ps s).state.links = s.links := by
  unfold ownSetAttentionMask; split <;> rfl

theorem State.issueNext_links (s : State) : s.issueNext.links = s.links := by
  unfold State.issueNext; split <;> rfl

theorem State.responseSent_links (s : State) : s.responseSent.links = s.links := by
  unfold State.responseSent; split <;> rfl

/-! ### Every command -/

theorem State.reset_pacingLaw : State.reset.PacingLaw := by
  obtain ⟨-, -, -, -, pacing, -⟩ := resetMeetsTheLaws
  exact pacing

/-- Every command keeps the pacing law: it answers a state whose links meet R95 and R96. -/
theorem exec_pacingLaw (i : Instr) (s : State) (h : s.PacingLaw) : ∃ t, exec i s = .next t ∧ t.PacingLaw := by
  have same {t : State} (hc : t.ctx = s.ctx) (hl : t.links = s.links) : t.PacingLaw := h.kept (.of_eq hc hl)
  have when {t : State} (p : Prop) [Decidable p] (k : s.KeepsPacing t) : (if p then t else s).PacingLaw :=
    h.kept (k.ite p)
  have untouched (k : Command) (b : Byte) {own : List Byte → State → Reply}
      (hc : ∀ ps, (own ps s).state.ctx = s.ctx) (hl : ∀ ps, (own ps s).state.links = s.links) :
      (s.command k b own).PacingLaw := h.command k b fun ps => same (hc ps) (hl ps)
  have owner (k : Command) (b : Byte) {own : List Byte → State → Reply}
      (ho : ∀ ps, s.KeepsPacing (own ps s).state) : (s.command k b own).PacingLaw :=
    h.command k b fun ps => h.kept (ho ps)
  cases i with
  | hardwareReset => exact ⟨_, rfl, State.reset_pacingLaw.kept (.of_eq rfl rfl)⟩
  | rstRise => exact ⟨_, rfl, same rfl rfl⟩
  | timebaseTick => exact ⟨_, rfl, by split <;> exact same rfl rfl⟩
  | hostRequestArrival r => exact ⟨_, rfl, h.kept (s.arrival_keepsPacing r)⟩
  | hostResponseSent => exact ⟨_, rfl, same s.responseSent_ctx s.responseSent_links⟩
  | elementTake c => exact ⟨_, rfl, h.kept (s.elementTake_keepsPacing c)⟩
  | drainComplete c => exact ⟨_, rfl, when _ (s.completeDrain_keepsPacing c).settle⟩
  | passthroughAdmission => exact ⟨_, rfl, h.kept s.passthroughAdmission_keepsPacing⟩
  | readAheadAdmission c => exact ⟨_, rfl, h.kept (s.readAheadAdmission_keepsPacing c)⟩
  | gatherLineAdmission c => exact ⟨_, rfl, h.kept (s.gatherLineAdmission_keepsPacing c)⟩
  | issue => exact ⟨_, rfl, same s.issueNext_ctx s.issueNext_links⟩
  | memoryRequestTaken => exact ⟨_, rfl, same rfl rfl⟩
  | memoryResponse m st data => exact ⟨_, rfl, h.kept (s.response_keepsPacing m st data)⟩
  | memoryTimeout m => exact ⟨_, rfl, when _ (s.timeoutRequest_keepsPacing m).settle⟩
  | gatherAgeExpiry c line => exact ⟨_, rfl, when _ (s.issueLines_keepsPacing c _).settle⟩
  | paceTimeout c => exact ⟨_, rfl, when _ (s.finishEarly_serves c _).keepsPacing.settle⟩
  | frameEnd => exact ⟨_, rfl, same rfl rfl⟩
  | unknownCommand => exact ⟨_, rfl, by split <;> exact same rfl rfl⟩
  | identify => exact ⟨_, rfl, untouched _ _ (fun _ => rfl) fun _ => rfl⟩
  | writeDesc b => exact ⟨_, rfl, same (s.writeDescEnd_ctx b) (s.writeDescEnd_links b)⟩
  | readDesc =>
    exact ⟨_, rfl, untouched _ _ (fun ps => ownReadDesc_ctx ps s) fun ps => ownReadDesc_links ps s⟩
  | clearDesc =>
    exact ⟨_, rfl, untouched _ _ (fun ps => ownClearDesc_ctx ps s) fun ps => ownClearDesc_links ps s⟩
  | setAperture =>
    exact ⟨_, rfl, untouched _ _ (fun ps => ownSetAperture_ctx ps s) fun ps => ownSetAperture_links ps s⟩
  | readAperture =>
    exact ⟨_, rfl, untouched _ _ (fun ps => ownReadAperture_ctx ps s) fun ps => ownReadAperture_links ps s⟩
  | queueWalk => exact ⟨_, rfl, owner _ _ fun ps => ownQueueWalk_keepsPacing ps s⟩
  | endWalk => exact ⟨_, rfl, owner _ _ fun ps => ownEndWalk_keepsPacing ps s⟩
  | abortWalk => exact ⟨_, rfl, owner _ _ fun ps => ownAbortWalk_keepsPacing ps s⟩
  | clearFault => exact ⟨_, rfl, owner _ _ fun ps => ownClearFault_keepsPacing ps s⟩
  | flushLines => exact ⟨_, rfl, owner _ _ fun ps => ownFlushLines_keepsPacing ps s⟩
  | readContext =>
    exact ⟨_, rfl, untouched _ _ (fun ps => ownReadContext_ctx ps s) fun ps => ownReadContext_links ps s⟩
  | setPacing => exact ⟨_, rfl, h.command _ _ h.setPacingCommand⟩
  | clearPacing => exact ⟨_, rfl, h.command _ _ h.clearPacingCommand⟩
  | readPacing =>
    exact ⟨_, rfl, untouched _ _ (fun ps => ownReadPacing_ctx ps s) fun ps => ownReadPacing_links ps s⟩
  | setTimers => exact ⟨_, rfl, owner _ _ fun ps => ownSetTimers_keepsPacing ps s⟩
  | readTimers => exact ⟨_, rfl, untouched _ _ (fun _ => rfl) fun _ => rfl⟩
  | popEvent =>
    exact ⟨_, rfl, untouched _ _ (fun ps => ownPopEvent_ctx ps s) fun ps => ownPopEvent_links ps s⟩
  | peekEvent =>
    exact ⟨_, rfl, untouched _ _ (fun ps => ownPeekEvent_ctx ps s) fun ps => ownPeekEvent_links ps s⟩
  | readEventStatus => exact ⟨_, rfl, untouched _ _ (fun _ => rfl) fun _ => rfl⟩
  | setAttentionMask =>
    exact ⟨_, rfl, untouched _ _ (fun ps => ownSetAttentionMask_ctx ps s) fun ps => ownSetAttentionMask_links ps s⟩
  | softReset => exact ⟨_, rfl, owner _ _ fun ps => ownSoftReset_keepsPacing ps s⟩
  | frameBegin => exact ⟨_, rfl, same s.frameBegin_ctx s.frameBegin_links⟩
  | linkByteComplete b => exact ⟨_, rfl, same (s.linkByte_ctx b) (s.linkByte_links b)⟩

/-- Settles O57: a step is a command on the state with the queue's rest, or idles. -/
theorem everyStepKeepsPacingLaw : Obligations.EveryStepKeepsPacingLaw := by
  intro s t h e
  unfold step at e
  split at e
  · obtain rfl := Host.Outcome.next.inj e; exact h
  · rename_i i rest _
    obtain ⟨u, hu, law⟩ := exec_pacingLaw i { s with pending := rest } (h.kept (.of_eq rfl rfl))
    obtain rfl := Host.Outcome.next.inj (hu.symm.trans e)
    exact law

end Sys2Proof.Machine
end

section
/-! The response law (O58) and the hold of a host tag (O5): what an operation may leave of the Host Transaction Table
and the response order, and that every command keeps R115 to R117. -/

namespace Sys2Proof.Machine

open Sys2Proof

/-! ### Operations that keep the transactions -/

/-- The slot of the tag is ANSWERED (R116). -/
def State.Answered (s : State) (u : HostTag) : Prop := ∃ x, s.slot u = some x ∧ x.answer.isSome = true

theorem State.responseLaw_iff {s : State} :
    s.ResponseLaw ↔ s.responses.Nodup ∧ ∀ u, u ∈ s.responses ↔ s.Answered u := Iff.rfl

/-- From `s` to `t` every transaction kept its slot and its request, and the response order, if it named each ANSWERED
slot exactly once, still does. -/
structure State.KeepsTransactions (s t : State) : Prop where
  held : ∀ u x, s.slot u = some x → ∃ y, t.slot u = some y ∧ y.req = x.req
  law : s.ResponseLaw → t.ResponseLaw

theorem State.KeepsTransactions.refl (s : State) : s.KeepsTransactions s := ⟨fun _ x h => ⟨x, h, rfl⟩, fun h => h⟩

theorem State.KeepsTransactions.trans {s t r : State} (h : s.KeepsTransactions t) (k : t.KeepsTransactions r) :
    s.KeepsTransactions r where
  held := fun u x hx => by
    obtain ⟨y, hy, same⟩ := h.held u x hx
    obtain ⟨z, hz, same'⟩ := k.held u y hy
    exact ⟨z, hz, same'.trans same⟩
  law := fun l => k.law (h.law l)

theorem State.KeepsTransactions.ite {s t : State} (h : s.KeepsTransactions t) (p : Prop) [Decidable p] :
    s.KeepsTransactions (if p then t else s) := by
  split
  · exact h
  · exact .refl s

/-- What touches neither slots nor the response order keeps the transactions. -/
theorem State.KeepsTransactions.of_eq {s t : State} (hs : t.slots = s.slots) (hr : t.responses = s.responses) :
    s.KeepsTransactions t := by
  have slot (u : HostTag) : t.slot u = s.slot u := by simp only [State.slot, hs]
  exact ⟨fun u x h => ⟨x, by rw [slot, h], rfl⟩, fun h => by simpa only [State.ResponseLaw, slot, hr] using h⟩

theorem State.Resettled.keepsTransactions {s t : State} (h : s.Resettled t) : s.KeepsTransactions t :=
  .of_eq h.slots h.responses

theorem State.KeepsTransactions.settle {s t : State} (h : s.KeepsTransactions t) : s.KeepsTransactions t.settle :=
  h.trans t.settle_resettled.keepsTransactions

theorem State.post_keepsTransactions (s : State) (e : EventRecord) : s.KeepsTransactions (s.post e) :=
  .of_eq (s.post_slots e) (s.post_responses e)

/-- A slot may be written if the transaction in it keeps its request and its answer, and a new one has no answer. -/
theorem State.setSlot_keepsTransactions {s : State} {t : HostTag} {y : HostSlot}
    (held : ∀ x, s.slot t = some x → y.req = x.req ∧ y.answer = x.answer) (new : s.slot t = none → y.answer = none) :
    s.KeepsTransactions (s.setSlot t (some y)) := by
  have answered (u : HostTag) : (s.setSlot t (some y)).Answered u ↔ s.Answered u := by
    simp only [State.Answered, State.slot_setSlot]
    split
    · rename_i e
      subst e
      cases hx : s.slot t with
      | none => simp [new hx]
      | some x => simp [(held x hx).2]
    · rfl
  refine ⟨fun u x hx => ?_, fun h => ?_⟩
  · rw [State.slot_setSlot]
    split
    · rename_i e
      subst e
      exact ⟨y, rfl, (held x hx).1⟩
    · exact ⟨x, hx, rfl⟩
  · obtain ⟨nodup, mem⟩ := State.responseLaw_iff.mp h
    exact State.responseLaw_iff.mpr ⟨nodup, fun u => (mem u).trans (answered u).symm⟩

/-! ### Answers, head checks and link breaks (R36, R37, R106, R115) -/

/-- An OPEN transaction does not stand in the response order, and its answer lets it join (R115, R117). -/
theorem State.ResponseLaw.answer {s : State} (h : s.ResponseLaw) {t : HostTag} {x : HostSlot}
    (hx : s.slot t = some x) (ho : x.answer = none) (why : Option HostReason) : (s.answer t why).ResponseLaw := by
  obtain ⟨nodup, mem⟩ := State.responseLaw_iff.mp h
  obtain ⟨hr, hslot⟩ := State.answer_open hx ho why
  have absent : t ∉ s.responses := by simp [mem, State.Answered, hx, ho]
  refine State.responseLaw_iff.mpr ⟨?_, fun u => ?_⟩
  · rw [hr]
    exact nodup.append (List.nodup_singleton t) (List.disjoint_singleton.mpr absent)
  · rw [hr, List.mem_append, List.mem_singleton]
    by_cases e : t = u
    · subst e
      simp [State.Answered, hslot]
    · rw [mem, State.Answered, State.Answered, s.answer_slot_of_ne e]
      simp [Ne.symm e]

theorem State.answer_keepsTransactions (s : State) (t : HostTag) (why : Option HostReason) :
    s.KeepsTransactions (s.answer t why) := by
  by_cases hc : ∀ x, s.slot t = some x → x.answer.isSome = true
  · rw [State.answer_closed hc]
    exact .refl s
  · push Not at hc
    obtain ⟨x, hx, ho⟩ := hc
    have ho : x.answer = none := by simpa using ho
    refine ⟨fun u y hy => ?_, fun h => h.answer hx ho why⟩
    by_cases e : t = u
    · subst e
      obtain rfl := Option.some.inj (hx.symm.trans hy)
      exact ⟨_, (State.answer_open hx ho why).2, rfl⟩
    · exact ⟨y, by rw [s.answer_slot_of_ne e, hy], rfl⟩

theorem State.setContext_keepsTransactions (s : State) (c : Ctx) (x : Context) :
    s.KeepsTransactions (s.setContext c x) := .of_eq rfl rfl

theorem State.finishHead_keepsTransactions (s : State) (c : Ctx) (why : Option HostReason) :
    s.KeepsTransactions (s.finishHead c why) := by
  unfold State.finishHead
  split
  · exact .refl s
  · exact (s.answer_keepsTransactions _ why).trans (State.setContext_keepsTransactions _ c _)

/-- A head that passes its check keeps its slot but for the counts (R37). -/
theorem State.acceptFill_keepsTransactions {s : State} {c : Ctx} {t : HostTag} {x : HostSlot}
    (h : s.head c = some (t, x)) (k : Nat) : s.KeepsTransactions ((s.acceptHead c t x k).fillAt c) := by
  have hx := (State.head_eq h).2
  have counted : s.KeepsTransactions (s.setSlot t (some { x with count := some k, taken := 0 })) :=
    State.setSlot_keepsTransactions (fun y hy => by obtain rfl := Option.some.inj (hx.symm.trans hy); exact ⟨rfl, rfl⟩)
      fun hn => by rw [hx] at hn; cases hn
  exact (counted.trans (State.setContext_keepsTransactions _ c _)).trans (State.setContext_keepsTransactions _ c _)

theorem State.promoteN_keepsTransactions (c : Ctx) (n : Nat) (s : State) :
    s.KeepsTransactions (State.promoteN c n s) := by
  induction n generalizing s with
  | zero => exact .refl s
  | succ n ih =>
    rcases s.promoteN_succ c n with e | ⟨t, x, r, why, hh, rfl | ⟨k, rfl⟩, e⟩ | ⟨t, x, k, hh, e⟩ <;> rw [e]
    · exact .refl s
    · exact (State.finishHead_keepsTransactions _ c why).trans (ih _)
    · exact ((State.acceptFill_keepsTransactions hh k).trans (State.finishHead_keepsTransactions _ c why)).trans (ih _)
    · exact State.acceptFill_keepsTransactions hh k

theorem State.promote_keepsTransactions (s : State) (c : Ctx) : s.KeepsTransactions (s.promote c) :=
  State.promoteN_keepsTransactions c _ s

theorem State.finishEarly_keepsTransactions (s : State) (c : Ctx) (why : HostReason) :
    s.KeepsTransactions (s.finishEarly c why) :=
  (s.finishHead_keepsTransactions c _).trans (State.promote_keepsTransactions _ c)

/-- What each turn of a fold keeps, the fold keeps. -/
theorem State.foldl_keepsTransactions {α : Type} {f : State → α → State}
    (h : ∀ (s : State) (a : α), s.KeepsTransactions (f s a))
    (l : List α) (s : State) : s.KeepsTransactions (l.foldl f s) :=
  List.foldlRecOn (motive := fun r : State => s.KeepsTransactions r) l f (.refl s) fun r k a _ => k.trans (h r a)

theorem State.answerAll_keepsTransactions (s : State) (c : Ctx) (why : HostReason) :
    s.KeepsTransactions (s.answerAll c why) :=
  (State.foldl_keepsTransactions (fun s t => s.answer_keepsTransactions t (some why)) _ s).trans
    (State.setContext_keepsTransactions _ c _)

theorem State.breakLinks_keepsTransactions (s : State) (c : Ctx) (why : Reason) :
    s.KeepsTransactions (s.breakLinks c why) := by
  refine State.foldl_keepsTransactions (fun r f => ?_) allCtx s
  rcases r.breakLink_cases c why f with e | ⟨l, -, -, -, e⟩ <;> rw [e]
  · exact .refl r
  · have cut : r.KeepsTransactions (r.linkCut c why f l) :=
      .of_eq (State.slots_ext fun u => r.linkCut_slot c why f l u) (r.linkCut_responses c why f l)
    exact cut.trans (State.promote_keepsTransactions _ f)

/-! ### Walks that launch, fault, end or are aborted (R23, R24, R28, R30, R32, R34) -/

theorem State.faultContext_keepsTransactions (s : State) (c : Ctx) (why : FaultReason) :
    s.KeepsTransactions (s.faultContext c why) := by
  rw [s.faultContext_eq, State.faulting]
  exact ((s.answerAll_keepsTransactions c _).trans (State.setContext_keepsTransactions _ c _)).trans
    (State.breakLinks_keepsTransactions _ c _)

theorem State.rearm_keepsTransactions (s : State) (c : Ctx) : s.KeepsTransactions (s.rearm c) := by
  rw [s.rearm_eq]
  exact .of_eq rfl rfl

theorem State.launch_keepsTransactions (s : State) (c : Ctx) (i : DescIx) : s.KeepsTransactions (s.launch c i) := by
  cases h : s.launchCheck (s.desc i) with
  | none =>
    rw [State.launch_accepted h]
    exact ((s.setContext_keepsTransactions c _).trans (State.rearm_keepsTransactions _ c)).trans
      (State.promote_keepsTransactions _ c)
  | some why =>
    rw [State.launch_refused h]
    exact (s.post_keepsTransactions _).trans (State.faultContext_keepsTransactions _ c _)

theorem State.launchNext_keepsTransactions (s : State) (c : Ctx) : s.KeepsTransactions (s.launchNext c) := by
  cases h : (s.context c).launchQ with
  | nil => rw [State.launchNext_nil h]; exact .refl s
  | cons i q =>
    rw [State.launchNext_cons h]
    exact (s.setContext_keepsTransactions c _).trans (State.launch_keepsTransactions _ c i)

theorem State.completeDrain_keepsTransactions (s : State) (c : Ctx) : s.KeepsTransactions (s.completeDrain c) := by
  unfold State.completeDrain
  dsimp only
  have reported := (s.post_keepsTransactions (s.walkDoneRecord c)).ite
    (((s.context c).snapshot.map Descriptor.doneEvent).getD false = true)
  generalize (if ((s.context c).snapshot.map Descriptor.doneEvent).getD false = true then s.post (s.walkDoneRecord c)
    else s) = r at reported
  refine reported.trans ?_
  split
  · exact r.launch_keepsTransactions c _
  · split
    · exact (r.setContext_keepsTransactions c _).trans (State.answerAll_keepsTransactions _ c _)
    · exact r.launchNext_keepsTransactions c

theorem State.drainIfDone_keepsTransactions (s : State) (c : Ctx) : s.KeepsTransactions (s.drainIfDone c) :=
  (s.completeDrain_keepsTransactions c).ite _

theorem State.discardReadAhead_keepsTransactions (s : State) (c : Ctx) :
    s.KeepsTransactions (s.discardReadAhead c) := .of_eq rfl rfl

theorem State.endWalk_keepsTransactions (s : State) (c : Ctx) (why : EndCause) :
    s.KeepsTransactions (s.endWalk c why) :=
  ((s.setContext_keepsTransactions c ((s.context c).ended why)).trans
    ((State.discardReadAhead_keepsTransactions _ c).ite _)).trans (State.drainIfDone_keepsTransactions _ c)

/-- What an abort discards and detaches lies apart from the host's transactions (R32, R71, R93, R139). -/
theorem State.cleared_keepsTransactions (s : State) (c : Ctx) : s.KeepsTransactions (s.cleared c) := by
  have discarded : s.KeepsTransactions (((s.discardLines c).detach (Origin.isWriteOf c) true).discardReadAhead c) :=
    .of_eq rfl rfl
  exact discarded.trans (State.answerAll_keepsTransactions _ c _)

theorem State.abort_keepsTransactions (s : State) (c : Ctx) (breaks purge : Bool) :
    s.KeepsTransactions (s.abort c breaks purge) := by
  rw [s.abort_eq]
  exact ((s.cleared_keepsTransactions c).trans ((State.breakLinks_keepsTransactions _ c _).ite _)).trans
    (State.setContext_keepsTransactions _ c _)

/-! ### Memory's answers and timeouts (R65, R66, R90, R127, R145) -/

theorem State.lineFailed_keepsTransactions (s : State) (c : Ctx) (n : BitVec 16) (l : Nat) (b : Bool)
    (why : FaultReason) (r : Reason) : s.KeepsTransactions (s.lineFailed c n l b why r) := by
  have discarded (q : State) : q.KeepsTransactions ((q.discardLines c).detach (Origin.isWriteOf c) false) :=
    .of_eq rfl rfl
  exact (s.post_keepsTransactions _).trans
    (((discarded _).trans (State.faultContext_keepsTransactions _ c why)).ite _)

theorem State.readFailed_keepsTransactions (s : State) (c : Ctx) (n : BitVec 16) (q : Nat) (r : Reason) :
    s.KeepsTransactions (s.readFailed c n q r) := by
  unfold State.readFailed
  split
  · exact .refl s
  · exact (s.setContext_keepsTransactions c _).trans (State.post_keepsTransactions _ _)

theorem State.readOkay_keepsTransactions (s : State) (c : Ctx) (q : Nat) (data : List Byte) :
    s.KeepsTransactions (s.readOkay c q data) := by
  unfold State.readOkay
  split
  · exact .refl s
  · split <;> exact s.setContext_keepsTransactions c _

/-- Memory's bytes go into the slot before it is answered (R127). -/
theorem State.hostOkay_keepsTransactions (s : State) (u : HostTag) (data : List Byte) :
    s.KeepsTransactions (s.hostOkay u data) := by
  unfold State.hostOkay
  split
  · exact .refl s
  · rename_i x hx
    dsimp only
    split
    · exact .refl s
    · refine State.KeepsTransactions.trans (State.setSlot_keepsTransactions (fun y hy => ?_) fun hn => ?_)
        (State.answer_keepsTransactions _ u none)
      · obtain rfl := Option.some.inj (hx.symm.trans hy)
        exact ⟨rfl, rfl⟩
      · rw [hx] at hn
        cases hn

theorem State.deliver_keepsTransactions (s : State) (e : TrackEntry) (st : MemStatus) (data : List Byte) :
    s.KeepsTransactions (s.deliver e st data) := by
  unfold State.deliver
  split
  · exact s.hostOkay_keepsTransactions _ _
  · exact s.answer_keepsTransactions _ _
  · split
    · exact .refl s
    · exact s.readOkay_keepsTransactions _ _ _
  · split
    · exact .refl s
    · exact s.readFailed_keepsTransactions _ _ _ _
  · split
    · exact .refl s
    · exact s.drainIfDone_keepsTransactions _
  · exact s.lineFailed_keepsTransactions _ _ _ _ _ _

theorem State.setTrack_keepsTransactions (s : State) (m : MemTag) (x : Option TrackEntry) :
    s.KeepsTransactions (s.setTrack m x) := .of_eq rfl rfl

theorem State.response_keepsTransactions (s : State) (m : MemTag) (st : MemStatus) (data : List Byte) :
    s.KeepsTransactions (s.response m st data) := by
  unfold State.response
  split
  · exact .refl s
  · split
    · exact s.post_keepsTransactions _
    · refine (s.setTrack_keepsTransactions m none).trans ?_
      dsimp only
      split
      · exact State.post_keepsTransactions _ _
      · exact (State.deliver_keepsTransactions _ _ st data).settle

theorem State.tellTimeout_keepsTransactions (s : State) (e : TrackEntry) : s.KeepsTransactions (s.tellTimeout e) := by
  unfold State.tellTimeout
  split
  · exact s.answer_keepsTransactions _ _
  · split
    · exact .refl s
    · exact s.readFailed_keepsTransactions _ _ _ _
  · exact s.lineFailed_keepsTransactions _ _ _ _ _ _

theorem State.timeoutRequest_keepsTransactions (s : State) (m : MemTag) :
    s.KeepsTransactions (s.timeoutRequest m) := by
  unfold State.timeoutRequest
  split
  · rename_i e _
    have reported : s.KeepsTransactions (s.reportTimeout m e) :=
      (s.setTrack_keepsTransactions m _).trans (State.post_keepsTransactions _ _)
    refine State.KeepsTransactions.ite ?_ _
    by_cases h : (s.reportTimeout m e).quarantined = 32
    · have chosen : s.KeepsTransactions (s.choosePlace m e) := reported.trans (.of_eq rfl rfl)
      rcases State.quarantine_blocked h with e' | e' <;> rw [e']
      · exact (chosen.trans (State.post_keepsTransactions _ _)).trans (State.tellTimeout_keepsTransactions _ e)
      · exact (chosen.trans (State.tellTimeout_keepsTransactions _ e)).trans (State.post_keepsTransactions _ _)
    · rw [State.quarantine_unblocked h]
      exact reported.trans (State.tellTimeout_keepsTransactions _ e)
  · exact .refl s

/-! ### Taken elements, host requests and admissions (R35, R38, R114, R120, R126) -/

theorem Taking.newSlot_req (k : Taking) (x : Context) : (k.newSlot x).req = k.head.req := by
  unfold Taking.newSlot
  split
  · unfold Taking.readSlot; split <;> rfl
  · rfl

/-- A taken element leaves the head's request, and the head OPEN or ANSWERED as it was (R38). -/
theorem State.Waiting.afterMove_keepsTransactions {s : State} {c : Ctx} {k : Taking} (w : s.Waiting c k) :
    s.KeepsTransactions (s.afterMove c k) := by
  have hx := (State.head_eq w.head).2
  have written : s.KeepsTransactions (s.setSlot k.tag (some (k.newSlot (s.context c)))) :=
    State.setSlot_keepsTransactions
      (fun y hy => by
        obtain rfl := Option.some.inj (hx.symm.trans hy)
        exact ⟨k.newSlot_req _, (k.newSlot_fields _).2.2⟩)
      fun hn => by rw [hx] at hn; cases hn
  refine written.trans (.of_eq (State.slots_ext fun u => ?_) ?_)
  · rw [s.afterMove_slot, State.slot_setSlot]
  · rw [s.afterMove_responses, State.setSlot_responses]

theorem State.afterTake_keepsTransactions (s : State) (c : Ctx) : s.KeepsTransactions (s.afterTake c) := by
  have answered := (s.finishHead_keepsTransactions c (s.headReason c)).ite (s.demand c = 0)
  unfold State.afterTake
  dsimp only
  generalize (if s.demand c = 0 then s.finishHead c (s.headReason c) else s) = r at answered
  have cut (why : HostReason) (e : EndCause) : r.KeepsTransactions ((r.cutHead c why).endWalk c e) :=
    ((r.finishHead_keepsTransactions c (some why)).ite _).trans (State.endWalk_keepsTransactions _ c e)
  refine answered.trans ?_
  split
  · exact cut _ _
  · split
    · exact cut _ _
    · exact r.promote_keepsTransactions c

theorem State.elementTake_keepsTransactions (s : State) (c : Ctx) : s.KeepsTransactions (s.elementTake c) := by
  unfold State.elementTake
  split
  · exact (State.KeepsTransactions.refl s).settle
  · rename_i k hk
    split
    · exact ((State.waiting_of_nextElement hk).afterMove_keepsTransactions.trans
        (State.afterTake_keepsTransactions _ c)).settle
    · exact (State.KeepsTransactions.refl s).settle

theorem State.walkAccess_keepsTransactions (s : State) (t : HostTag) (c : Ctx) :
    s.KeepsTransactions (s.walkAccess t c) := by
  unfold State.walkAccess
  dsimp only
  split
  · exact s.answer_keepsTransactions t _
  · exact s.answer_keepsTransactions t _
  · exact (s.setContext_keepsTransactions c _).trans (State.promote_keepsTransactions _ c)
  · exact s.setContext_keepsTransactions c _

/-- A request on a free tag takes its slot OPEN (R116). -/
theorem State.accept_keepsTransactions {s : State} {r : HostRequest} (free : s.slot r.tag = none) :
    s.KeepsTransactions (s.accept r) := by
  have taken {y : HostSlot} (hy : y.answer = none) : s.KeepsTransactions (s.setSlot r.tag (some y)) :=
    State.setSlot_keepsTransactions (fun x hx => by rw [free] at hx; cases hx) fun _ => hy
  unfold State.accept
  split
  · exact (taken rfl).trans (State.answer_keepsTransactions _ _ _)
  · split
    · exact (taken rfl).trans (State.answer_keepsTransactions _ _ _)
    · exact (taken rfl).trans (State.walkAccess_keepsTransactions _ _ _)
    · exact (taken rfl).trans (.of_eq rfl rfl)

theorem State.arrival_keepsTransactions (s : State) (r : HostRequest) : s.KeepsTransactions (s.arrival r) := by
  unfold State.arrival
  split
  · exact .refl s
  · split
    · exact s.post_keepsTransactions _
    · rename_i free
      exact (State.accept_keepsTransactions (by simpa using free)).settle

theorem State.passthroughAdmission_keepsTransactions (s : State) : s.KeepsTransactions s.passthroughAdmission := by
  have admitted (u : HostTag) (x : HostSlot) : s.KeepsTransactions (s.admitPassthrough u x) := by
    unfold State.admitPassthrough
    dsimp only
    split <;> exact .of_eq rfl rfl
  unfold State.passthroughAdmission
  split
  · split
    · exact (admitted _ _).settle
    · exact .refl s
  · exact .refl s

theorem State.readAheadAdmission_keepsTransactions (s : State) (c : Ctx) :
    s.KeepsTransactions (s.readAheadAdmission c) := by
  have admitted (e : Entry) : s.KeepsTransactions (s.admitRead c e) := .of_eq rfl rfl
  unfold State.readAheadAdmission
  split
  · split
    · exact (admitted _).settle
    · exact .refl s
  · exact .refl s

theorem State.gatherLineAdmission_keepsTransactions (s : State) (c : Ctx) :
    s.KeepsTransactions (s.gatherLineAdmission c) := by
  have admitted (l : GatherLine) : s.KeepsTransactions (s.admitLine c l) := .of_eq rfl rfl
  unfold State.gatherLineAdmission
  split
  · split
    · exact (admitted _).settle
    · exact .refl s
  · exact .refl s

theorem State.issueNext_keepsTransactions (s : State) : s.KeepsTransactions s.issueNext := by
  unfold State.issueNext
  split
  · exact .of_eq rfl rfl
  · exact .refl s

theorem State.issueLines_keepsTransactions (s : State) (c : Ctx) (p : GatherLine → Bool) :
    s.KeepsTransactions (s.issueLines c p) := s.setContext_keepsTransactions c _

theorem State.expire_keepsTransactions (s : State) (i : Timer) : s.KeepsTransactions (s.expire i) := by
  have decided (r : State) : r.KeepsTransactions r.decideAfresh := r.decideAfresh_resettled.keepsTransactions
  cases i with
  | head c => exact ((s.finishEarly_keepsTransactions c _).trans (decided _)).ite _
  | request m => exact ((s.timeoutRequest_keepsTransactions m).trans (decided _)).ite _

theorem State.retime_keepsTransactions (s : State) (new : Settings) : s.KeepsTransactions (s.retime new) := by
  have set : s.KeepsTransactions (s.withSettings new) := .of_eq rfl rfl
  have turns : (s.compared new).KeepsTransactions (s.afterTurns new) :=
    State.foldl_keepsTransactions State.expire_keepsTransactions _ _
  exact ((set.trans (s.compared_resettled new).keepsTransactions).trans turns).trans
    (s.afterTurns_resettled new).keepsTransactions

/-! ### The commands of the Management Link -/

/-- A command keeps what its owner keeps. -/
theorem State.command_keepsTransactions (s : State) (k : Command) (b : Byte) {owner : List Byte → State → Reply}
    (ho : ∀ ps, s.KeepsTransactions (owner ps s).state) : s.KeepsTransactions (s.command k b owner) := by
  unfold State.command
  split
  · exact (ho _).trans (.of_eq rfl rfl)
  · exact .refl s

theorem ownQueueWalk_keepsTransactions (ps : List Byte) (s : State) :
    s.KeepsTransactions (ownQueueWalk ps s).state := by
  unfold ownQueueWalk
  split
  · dsimp only
    split
    · exact (s.launch_keepsTransactions _ _).settle
    · split
      · exact s.setContext_keepsTransactions _ _
      · exact .refl s
  · exact .refl s

theorem ownEndWalk_keepsTransactions (ps : List Byte) (s : State) : s.KeepsTransactions (ownEndWalk ps s).state := by
  unfold ownEndWalk
  split
  · exact .refl s
  · split
    · exact (((s.finishHead_keepsTransactions _ _).ite _).trans (State.endWalk_keepsTransactions _ _ _)).settle
    · exact .refl s

theorem ownAbortWalk_keepsTransactions (ps : List Byte) (s : State) :
    s.KeepsTransactions (ownAbortWalk ps s).state := by
  unfold ownAbortWalk
  split
  · exact .refl s
  · split
    · exact ((s.abort_keepsTransactions _ _ _).trans (State.launchNext_keepsTransactions _ _)).settle
    · exact .refl s

theorem ownClearFault_keepsTransactions (ps : List Byte) (s : State) :
    s.KeepsTransactions (ownClearFault ps s).state := by
  unfold ownClearFault
  split
  · exact .refl s
  · split
    · exact ((s.setContext_keepsTransactions _ _).trans (State.launchNext_keepsTransactions _ _)).settle
    · exact .refl s

theorem ownFlushLines_keepsTransactions (ps : List Byte) (s : State) :
    s.KeepsTransactions (ownFlushLines ps s).state := by
  unfold ownFlushLines
  split
  · exact .refl s
  · exact (s.setContext_keepsTransactions _ _).settle

theorem ownSetPacing_keepsTransactions (ps : List Byte) (s : State) :
    s.KeepsTransactions (ownSetPacing ps s).state := by
  have linked (f : Ctx) (l : Option PacingLink) : s.KeepsTransactions (s.setPacing f l) := .of_eq rfl rfl
  unfold ownSetPacing
  split
  · split
    · exact .refl s
    · exact ((linked _ _).trans (State.promote_keepsTransactions _ _)).settle
  · exact .refl s

theorem ownClearPacing_keepsTransactions (ps : List Byte) (s : State) :
    s.KeepsTransactions (ownClearPacing ps s).state := by
  have unlinked (f : Ctx) : s.KeepsTransactions (s.setPacing f none) := .of_eq rfl rfl
  unfold ownClearPacing
  split
  · exact .refl s
  · exact (unlinked _).settle

theorem ownSetTimers_keepsTransactions (ps : List Byte) (s : State) :
    s.KeepsTransactions (ownSetTimers ps s).state := by
  unfold ownSetTimers
  split
  · exact s.retime_keepsTransactions _
  · exact .refl s

theorem ownSoftReset_keepsTransactions (ps : List Byte) (s : State) :
    s.KeepsTransactions (ownSoftReset ps s).state := by
  have aborted : s.KeepsTransactions s.abortAll :=
    State.foldl_keepsTransactions (fun r c => r.abort_keepsTransactions c false true) allCtx s
  have armed (r : State) : r.KeepsTransactions r.armAll := .of_eq rfl rfl
  exact ((aborted.trans (armed _)).trans (State.post_keepsTransactions _ _)).settle

/-! ### The owners and events that touch no transaction -/

theorem State.putDesc_keepsTransactions (s : State) (put : Option (DescIx × Descriptor)) :
    s.KeepsTransactions (s.putDesc put) := by
  unfold State.putDesc
  split
  · exact .refl s
  · exact .of_eq rfl rfl

theorem State.link_keepsTransactions (s : State) (f : Frame) : s.KeepsTransactions { s with link := f } :=
  .of_eq rfl rfl

theorem State.writeDescEnd_keepsTransactions (s : State) (b : Byte) : s.KeepsTransactions (s.writeDescEnd b) := by
  unfold State.writeDescEnd
  split
  · split
    · exact .refl s
    · exact (s.putDesc_keepsTransactions _).trans (State.link_keepsTransactions _ _)
  · exact .refl s

theorem State.linkByte_keepsTransactions (s : State) (b : Byte) : s.KeepsTransactions (s.linkByte b) := by
  unfold State.linkByte
  dsimp only
  split
  · exact .refl s
  · exact s.link_keepsTransactions _
  · exact s.link_keepsTransactions _
  · exact s.link_keepsTransactions _
  · split
    · exact .refl s
    · split
      · exact .refl s
      · exact s.link_keepsTransactions _
  · split
    · split
      · exact .refl s
      · exact (s.putDesc_keepsTransactions _).trans (State.link_keepsTransactions _ _)
    · split
      · exact .refl s
      · exact s.link_keepsTransactions _

theorem State.frameBegin_keepsTransactions (s : State) : s.KeepsTransactions s.frameBegin := by
  unfold State.frameBegin
  split
  · exact .refl s
  · split <;> exact .of_eq rfl rfl

theorem ownReadDesc_keepsTransactions (ps : List Byte) (s : State) : s.KeepsTransactions (ownReadDesc ps s).state := by
  unfold ownReadDesc; split <;> exact .refl s

theorem ownClearDesc_keepsTransactions (ps : List Byte) (s : State) :
    s.KeepsTransactions (ownClearDesc ps s).state := by
  unfold ownClearDesc
  split
  · exact .refl s
  · exact .of_eq rfl rfl

theorem ownSetAperture_keepsTransactions (ps : List Byte) (s : State) :
    s.KeepsTransactions (ownSetAperture ps s).state := by
  unfold ownSetAperture
  split
  · split
    · exact .refl s
    · exact .of_eq rfl rfl
  · exact .refl s

theorem ownReadAperture_keepsTransactions (ps : List Byte) (s : State) :
    s.KeepsTransactions (ownReadAperture ps s).state := by
  unfold ownReadAperture; split <;> exact .refl s

theorem ownReadContext_keepsTransactions (ps : List Byte) (s : State) :
    s.KeepsTransactions (ownReadContext ps s).state := by
  unfold ownReadContext; split <;> exact .refl s

theorem ownReadPacing_keepsTransactions (ps : List Byte) (s : State) :
    s.KeepsTransactions (ownReadPacing ps s).state := by
  unfold ownReadPacing; split <;> exact .refl s

theorem ownPopEvent_keepsTransactions (ps : List Byte) (s : State) : s.KeepsTransactions (ownPopEvent ps s).state := by
  have removed (rest : List EventRecord) : s.KeepsTransactions (s.removeOldest rest) := by
    unfold State.removeOldest; split <;> exact .of_eq rfl rfl
  unfold ownPopEvent
  split
  · exact .refl s
  · exact removed _

theorem ownPeekEvent_keepsTransactions (ps : List Byte) (s : State) :
    s.KeepsTransactions (ownPeekEvent ps s).state := by
  unfold ownPeekEvent; split <;> exact .refl s

theorem ownSetAttentionMask_keepsTransactions (ps : List Byte) (s : State) :
    s.KeepsTransactions (ownSetAttentionMask ps s).state := by
  unfold ownSetAttentionMask
  split
  · exact .of_eq rfl rfl
  · exact .refl s

/-! ### Every command -/

/-- Every command but the two that free slots keeps the transactions: the hardware reset frees every slot (R129) and the
sending of a response its own (R116). -/
theorem exec_keepsTransactions {i : Instr} (hreset : i ≠ .hardwareReset) (hsent : i ≠ .hostResponseSent) (s : State) :
    ∃ t, exec i s = .next t ∧ s.KeepsTransactions t := by
  have owner (k : Command) (b : Byte) {own : List Byte → State → Reply}
      (ho : ∀ ps s, s.KeepsTransactions (own ps s).state) : s.KeepsTransactions (s.command k b own) :=
    s.command_keepsTransactions k b fun ps => ho ps s
  cases i with
  | hardwareReset => exact absurd rfl hreset
  | rstRise => exact ⟨_, rfl, .of_eq rfl rfl⟩
  | timebaseTick => exact ⟨_, rfl, by split <;> exact .of_eq rfl rfl⟩
  | hostRequestArrival r => exact ⟨_, rfl, s.arrival_keepsTransactions r⟩
  | hostResponseSent => exact absurd rfl hsent
  | elementTake c => exact ⟨_, rfl, s.elementTake_keepsTransactions c⟩
  | drainComplete c => exact ⟨_, rfl, (s.completeDrain_keepsTransactions c).settle.ite _⟩
  | passthroughAdmission => exact ⟨_, rfl, s.passthroughAdmission_keepsTransactions⟩
  | readAheadAdmission c => exact ⟨_, rfl, s.readAheadAdmission_keepsTransactions c⟩
  | gatherLineAdmission c => exact ⟨_, rfl, s.gatherLineAdmission_keepsTransactions c⟩
  | issue => exact ⟨_, rfl, s.issueNext_keepsTransactions⟩
  | memoryRequestTaken => exact ⟨_, rfl, .of_eq rfl rfl⟩
  | memoryResponse m st data => exact ⟨_, rfl, s.response_keepsTransactions m st data⟩
  | memoryTimeout m => exact ⟨_, rfl, (s.timeoutRequest_keepsTransactions m).settle.ite _⟩
  | gatherAgeExpiry c line => exact ⟨_, rfl, (s.issueLines_keepsTransactions c _).settle.ite _⟩
  | paceTimeout c => exact ⟨_, rfl, (s.finishEarly_keepsTransactions c _).settle.ite _⟩
  | frameEnd => exact ⟨_, rfl, .of_eq rfl rfl⟩
  | unknownCommand => exact ⟨_, rfl, (s.link_keepsTransactions _).ite _⟩
  | identify => exact ⟨_, rfl, owner _ _ fun _ s => .refl s⟩
  | writeDesc b => exact ⟨_, rfl, s.writeDescEnd_keepsTransactions b⟩
  | readDesc => exact ⟨_, rfl, owner _ _ ownReadDesc_keepsTransactions⟩
  | clearDesc => exact ⟨_, rfl, owner _ _ ownClearDesc_keepsTransactions⟩
  | setAperture => exact ⟨_, rfl, owner _ _ ownSetAperture_keepsTransactions⟩
  | readAperture => exact ⟨_, rfl, owner _ _ ownReadAperture_keepsTransactions⟩
  | queueWalk => exact ⟨_, rfl, owner _ _ ownQueueWalk_keepsTransactions⟩
  | endWalk => exact ⟨_, rfl, owner _ _ ownEndWalk_keepsTransactions⟩
  | abortWalk => exact ⟨_, rfl, owner _ _ ownAbortWalk_keepsTransactions⟩
  | clearFault => exact ⟨_, rfl, owner _ _ ownClearFault_keepsTransactions⟩
  | flushLines => exact ⟨_, rfl, owner _ _ ownFlushLines_keepsTransactions⟩
  | readContext => exact ⟨_, rfl, owner _ _ ownReadContext_keepsTransactions⟩
  | setPacing => exact ⟨_, rfl, owner _ _ ownSetPacing_keepsTransactions⟩
  | clearPacing => exact ⟨_, rfl, owner _ _ ownClearPacing_keepsTransactions⟩
  | readPacing => exact ⟨_, rfl, owner _ _ ownReadPacing_keepsTransactions⟩
  | setTimers => exact ⟨_, rfl, owner _ _ ownSetTimers_keepsTransactions⟩
  | readTimers => exact ⟨_, rfl, owner _ _ fun _ s => .refl s⟩
  | popEvent => exact ⟨_, rfl, owner _ _ ownPopEvent_keepsTransactions⟩
  | peekEvent => exact ⟨_, rfl, owner _ _ ownPeekEvent_keepsTransactions⟩
  | readEventStatus => exact ⟨_, rfl, owner _ _ fun _ s => .refl s⟩
  | setAttentionMask => exact ⟨_, rfl, owner _ _ ownSetAttentionMask_keepsTransactions⟩
  | softReset => exact ⟨_, rfl, owner _ _ ownSoftReset_keepsTransactions⟩
  | frameBegin => exact ⟨_, rfl, s.frameBegin_keepsTransactions⟩
  | linkByteComplete b => exact ⟨_, rfl, s.linkByte_keepsTransactions b⟩

/-! ### The two commands that free slots (R115, R116, R129) -/

theorem State.responseSent_nil {s : State} (h : s.responses = []) : s.responseSent = s := by
  simp only [State.responseSent, h]

theorem State.responseSent_cons {s : State} {t : HostTag} {rest : List HostTag} (h : s.responses = t :: rest) :
    s.responseSent = { s.setSlot t none with responses := rest } := by
  simp only [State.responseSent, h]

/-- The slot that a sent response frees was named by the head of the response order alone. -/
theorem State.ResponseLaw.responseSent {s : State} (h : s.ResponseLaw) : s.responseSent.ResponseLaw := by
  cases hr : s.responses with
  | nil => rwa [State.responseSent_nil hr]
  | cons t rest =>
    obtain ⟨nodup, mem⟩ := State.responseLaw_iff.mp h
    rw [hr, List.nodup_cons] at nodup
    obtain ⟨absent, nodup⟩ := nodup
    rw [State.responseSent_cons hr]
    refine State.responseLaw_iff.mpr ⟨nodup, fun u => ?_⟩
    have slot : State.slot { s.setSlot t none with responses := rest } u = if t = u then none else s.slot u :=
      s.slot_setSlot t u none
    rw [State.Answered, slot]
    split
    · rename_i e
      subst e
      simpa using absent
    · rename_i e
      rw [← State.Answered, ← mem, hr, List.mem_cons]
      simp [Ne.symm e]

/-- A sent response leaves the slots of the other tags (R116). -/
theorem State.responseSent_slot {s : State} {u : HostTag} (h : s.responses.head? ≠ some u) :
    s.responseSent.slot u = s.slot u := by
  cases hr : s.responses with
  | nil => rw [State.responseSent_nil hr]
  | cons t rest =>
    have other : t ≠ u := by simpa [hr] using h
    rw [State.responseSent_cons hr]
    exact (s.slot_setSlot t u none).trans (if_neg other)

theorem State.hardwareReset_responseLaw (s : State) : s.hardwareReset.ResponseLaw := by
  obtain ⟨-, -, -, -, -, law, -⟩ := resetMeetsTheLaws
  exact law

/-- Every command keeps the response law. -/
theorem exec_responseLaw (i : Instr) (s : State) (h : s.ResponseLaw) : ∃ t, exec i s = .next t ∧ t.ResponseLaw := by
  by_cases hreset : i = .hardwareReset
  · subst hreset
    exact ⟨_, rfl, s.hardwareReset_responseLaw⟩
  by_cases hsent : i = .hostResponseSent
  · subst hsent
    exact ⟨_, rfl, h.responseSent⟩
  obtain ⟨t, ht, keeps⟩ := exec_keepsTransactions hreset hsent s
  exact ⟨t, ht, keeps.law h⟩

/-- Settles O58: a step is a command on the state with the queue's rest, or idles. -/
theorem everyStepKeepsResponseLaw : Obligations.EveryStepKeepsResponseLaw := by
  intro s t h e
  unfold step at e
  split at e
  · obtain rfl := Host.Outcome.next.inj e
    exact h
  · rename_i i rest _
    obtain ⟨u, hu, law⟩ := exec_responseLaw i { s with pending := rest } h
    obtain rfl := Host.Outcome.next.inj (hu.symm.trans e)
    exact law

/-- Settles O5: a used tag is not taken anew, a sent response frees its own, and every other command keeps the
transactions. -/
theorem tagIsHeldUntilResponseSent : Obligations.TagIsHeldUntilResponseSent := by
  refine ⟨fun s r x hlow hx => ?_, fun s t rest hr => ?_, fun i s t u x he hx hreset hsent => ?_⟩
  · show Host.Outcome.next (s.arrival r) = _
    simp only [State.arrival, hlow, hx]
    rfl
  · exact congrArg _ (State.responseSent_cons hr)
  · by_cases hi : i = .hostResponseSent
    · subst hi
      obtain rfl := Host.Outcome.next.inj he
      exact ⟨x, by rw [State.responseSent_slot (hsent rfl), hx], rfl⟩
    · obtain ⟨t', ht, keeps⟩ := exec_keepsTransactions hreset hi s
      obtain rfl := Host.Outcome.next.inj (ht.symm.trans he)
      exact keeps.held u x hx

end Sys2Proof.Machine
end

section
/-! Resets, answers, malformed requests, memory's answers to passthrough requests and SET_APERTURE (O4, O6, O7, O36,
O45). -/

namespace Sys2Proof

open Sys2Proof.Machine

/-! ### Malformed requests (R113, R114) -/

theorem HostRequest.beats_pos {r : HostRequest} (h : r.wf = true) : 1 ≤ r.beats := by
  simp only [HostRequest.wf, Bool.and_eq_true, decide_eq_true_eq] at h
  obtain ⟨⟨⟨hb, -⟩, -⟩, -⟩ := h
  exact hb

/-- What makes a request malformed. -/
theorem HostRequest.malformed_iff {r : HostRequest} (h : r.wf = true) : r.malformed = true ↔
    (1 < r.beats ∧ r.address.toNat % 4 ≠ 0) ∨ (r.beats = 1 ∧ r.address.toNat % r.size ≠ 0)
      ∨ 0xFFFFFFFF < r.range.hi := by
  have beats := HostRequest.beats_pos h
  unfold HostRequest.malformed
  split
  · simp_all
  · have several : 1 < r.beats := by omega
    simp_all

/-- The size of a well-formed single beat is 1, 2 or 4 (R113). -/
theorem HostRequest.size_of_single {r : HostRequest} (h : r.wf = true) (hb : r.beats = 1) :
    r.size = 1 ∨ r.size = 2 ∨ r.size = 4 := by
  simp only [HostRequest.wf, Bool.and_eq_true] at h
  obtain ⟨⟨-, hs⟩, -⟩ := h
  simpa [hb, or_assoc] using hs

/-- A single beat at a multiple of its size lies in one beat of the port. -/
theorem HostRequest.single_in_beat {r : HostRequest} (h : r.wf = true) (hb : r.beats = 1)
    (ha : r.address.toNat % r.size = 0) : r.address.toNat % 4 + r.size ≤ 4 := by
  rcases HostRequest.size_of_single h hb with e | e | e <;> rw [e] at ha ⊢ <;> omega

/-- Several beats end where their range does. -/
theorem HostRequest.beats_in_space {r : HostRequest} (hb : 1 < r.beats) (h : r.range.hi ≤ 0xFFFFFFFF) :
    r.address.toNat + 4 * r.beats ≤ 2 ^ 32 := by
  simp only [HostRequest.range, HostRequest.length, if_neg hb.ne'] at h
  omega

/-! ### The data of a read (R113, R115) -/

theorem HostRequest.responseData_length (r : HostRequest) (data : List Byte) :
    (r.responseData data).length = 4 * r.beats := by simp [HostRequest.responseData]

/-- A response byte is memory's at the addressed positions and zero elsewhere (R115). -/
theorem HostRequest.responseData_getElem? (r : HostRequest) {data : List Byte} {i : Nat} {b : Byte}
    (hi : i < 4 * r.beats) (hb : data[i]? = some b) : (r.responseData data)[i]?
      = some (if r.offset ≤ i ∧ i < r.offset + r.length then b else 0) := by
  simp [HostRequest.responseData, hi, List.getD, hb]

end Sys2Proof

namespace Sys2Proof.Machine

open Sys2Proof

theorem exec_arrival_malformed {s : State} {r : HostRequest} (hlow : s.rstLow = false) (hf : s.slot r.tag = none)
    (hm : r.malformed = true) : exec (.hostRequestArrival r) s
      = .next ((s.setSlot r.tag (some { r.newSlot with cls := none })).answer r.tag (some .malformed)).settle := by
  show Host.Outcome.next (s.arrival r) = _
  simp only [State.arrival, State.accept, hlow, hf, hm]
  rfl

/-- Settles O7: the three cases of R114 are those in which the port answers before classification. -/
theorem malformedRequestIsAnswered : Obligations.MalformedRequestIsAnswered := by
  intro s r hr bad
  refine ⟨fun hbad hlow hf => ?_, fun hgood => ?_⟩
  · exact ⟨_, exec_arrival_malformed hlow hf ((HostRequest.malformed_iff hr).mpr hbad), State.settle_resettled _⟩
  · simp only [bad, not_or, not_and, not_not, not_lt] at hgood
    obtain ⟨several, single, inSpace⟩ := hgood
    exact ⟨fun hb => HostRequest.single_in_beat hr hb (single hb),
      fun hb => ⟨several hb, HostRequest.beats_in_space hb inSpace⟩⟩

/-! ### The HOST_FAULT record (R115, R128) -/

theorem State.hostFaultRecord_walk (s : State) (t : HostTag) {x : HostSlot} (why : HostReason) {c : Ctx}
    (h : x.cls = some (.walk c)) :
    (s.hostFaultRecord t x why).context = some c ∧ (s.hostFaultRecord t x why).value = some x.taken := by
  simp [State.hostFaultRecord, h]

/-- A transaction that is no walk access has no context and no elements to report. -/
theorem State.hostFaultRecord_other (s : State) (t : HostTag) {x : HostSlot} (why : HostReason)
    (h : ∀ c, x.cls ≠ some (.walk c)) :
    (s.hostFaultRecord t x why).context = none ∧ (s.hostFaultRecord t x why).value = none := by
  cases hc : x.cls with
  | none => simp [State.hostFaultRecord, hc]
  | some k =>
    cases k with
    | passthrough => simp [State.hostFaultRecord, hc]
    | walk c => exact absurd hc (h c)

/-- Settles O6: the two answers of an OPEN transaction, and the answer that comes too late. -/
theorem answerIsGivenOnceAndReported : Obligations.AnswerIsGivenOnceAndReported := by
  intro s t x hx
  refine ⟨fun ho => ⟨State.answer_okay hx ho, fun why => ?_⟩, fun ha why => State.answer_closed (fun y hy => ?_) why⟩
  · exact ⟨s.hostFaultRecord t x why, State.answer_fault hx ho why, rfl, rfl, rfl, rfl, rfl, rfl, rfl,
      fun c => s.hostFaultRecord_walk t why, s.hostFaultRecord_other t why⟩
  · obtain rfl := Option.some.inj (hx.symm.trans hy)
    exact ha

/-! ### Memory's answer to a passthrough request (R115, R127, R141) -/

/-- The host bytes that an OKAY answer of memory gives (R127). -/
def HostSlot.okayBytes (x : HostSlot) (data : List Byte) : List Byte :=
  match x.req.kind with
  | .read => x.req.responseData data
  | .write => []

/-- An OKAY answer to an OPEN transaction answers it with memory's bytes. -/
theorem State.hostOkay_open {s : State} {h : HostTag} {x : HostSlot} (hx : s.slot h = some x) (ho : x.answer = none)
    (data : List Byte) : s.hostOkay h data = { s.setSlot h (some { x with
      readData := x.okayBytes data, answer := some ⟨.okay, x.okayBytes data⟩ }) with
        responses := s.responses ++ [h] } := by
  have stored : (s.setSlot h (some { x with readData := x.okayBytes data })).slot h
      = some { x with readData := x.okayBytes data } := s.slot_setSlot_self h _
  have given : s.hostOkay h data = (s.setSlot h (some { x with readData := x.okayBytes data })).answer h none := by
    simp only [State.hostOkay, hx, ho]
    rfl
  rw [given, State.answer_okay stored ho, State.setSlot_setSlot]
  rfl

/-- Settles O36: the answer goes to the transaction that the tracker entry names. -/
theorem passthroughIsAnsweredByMemory : Obligations.PassthroughIsAnsweredByMemory := by
  intro s m e h x data hlow hm hf horigin hx ho
  have delivered (st : MemStatus) : exec (.memoryResponse m st data) s
      = .next ((s.setTrack m none).deliver e st data).settle := exec_response hlow hm hf st data
  have hx' : (s.setTrack m none).slot h = some x := hx
  refine ⟨⟨_, delivered .fault, ?_⟩, _, x.okayBytes data, delivered .okay, ?_, fun hw => ?_, fun hr => ?_⟩
  · simp only [State.deliver, horigin]
    exact State.settle_resettled _
  · simp only [State.deliver, horigin]
    rw [State.hostOkay_open hx' ho]
    exact State.settle_resettled _
  · simp only [HostSlot.okayBytes, hw]
  · simp only [HostSlot.okayBytes, hr]
    exact ⟨x.req.responseData_length data, fun i b => x.req.responseData_getElem?⟩

/-! ### Resets and time (R129, R148, R152, R162) -/

theorem State.linkAddress_toNat (s : State) : s.linkAddress.toNat = 0xA4 + s.strap.toNat := by
  have := s.strap.isLt
  have base : Config.linkBase.toNat = 0xA4 := rfl
  rw [State.linkAddress, BitVec.toNat_add, BitVec.toNat_setWidth, base]
  omega

/-- Settles O4: RST_RISE, the tick, and the three commands that wait for RST# to rise. -/
theorem strapTimebaseAndResetGate : Obligations.StrapTimebaseAndResetGate := by
  intro s
  refine ⟨fun v => ⟨_, rfl, rfl, State.linkAddress_toNat _⟩, fun high => ?_, fun low => ⟨?_, fun r => ?_, ?_⟩⟩
  · refine ⟨{ s with timebase := s.timebase + 1, usLength := s.settings.clockMhz }, ?_, rfl, ?_⟩
    · simp [exec, execTimebaseTick, high]
    · simp
  · simp [exec, execTimebaseTick, low]
  · simp [exec, execHostRequestArrival, State.arrival, low]
  · intro m st data
    simp [exec, execMemoryResponse, State.response, low]

end Sys2Proof.Machine
end

section
/-! SET_APERTURE (O45). -/

namespace Sys2Proof.Machine

open Sys2Proof

/-! ### The parameters of SET_APERTURE (R118, R119, Table 40) -/

section Parameters

variable (i a₀ a₁ a₂ a₃ size ctx en : Byte)

/-- The accepted values of SIZE, BASE and ENABLED (R119, check 2). -/
theorem apertureValues_iff : apertureValues ([i, a₀, a₁, a₂, a₃, size, ctx] ++ [en]) = true ↔
    (12 ≤ size.toNat ∧ size.toNat ≤ 28) ∧ 2 ^ size.toNat ∣ decodeLE [a₀, a₁, a₂, a₃] ∧ en.toNat ≤ 1 := by
  show (12 ≤ size.toNat && size.toNat ≤ 28 && decodeLE [a₀, a₁, a₂, a₃] % 2 ^ size.toNat == 0
    && en.toNat ≤ 1) = true ↔ _
  simp only [Bool.and_eq_true, decide_eq_true_eq, beq_iff_eq, Nat.dvd_iff_mod_eq_zero, and_assoc]

theorem apertureOf_eq (c : Ctx) : apertureOf ([i, a₀, a₁, a₂, a₃, size, ctx] ++ [en]) c
    = { base := BitVec.ofNat 32 (decodeLE [a₀, a₁, a₂, a₃]), sizeExp := size.toNat, context := c,
        enabled := en == 1 } := by
  have enabled : (en.toNat == 1) = (en == 1) := by
    rw [Bool.eq_iff_iff, beq_iff_eq, beq_iff_eq, ← BitVec.toNat_inj]
    rfl
  rw [← enabled]
  rfl

end Parameters

/-- The range of a record with an accepted SIZE begins at BASE and has SIZE bytes (R118). -/
theorem Aperture.range_of_base {a : Aperture} {base : Nat} (hb : a.base = BitVec.ofNat 32 base) (hlt : base < 2 ^ 32)
    (hs : a.sizeExp ≠ 0) : a.range.lo = (base : Int) ∧ a.range.hi = (base : Int) + 2 ^ a.sizeExp - 1 := by
  have value : a.base.toNat = base := by rw [hb, BitVec.toNat_ofNat, Nat.mod_eq_of_lt hlt]
  simp [Aperture.range, Aperture.size, value, hs]

/-! ### The checks of SET_APERTURE (R119) -/

theorem Region.meets_iff {a b : Region} : a.meets b = true ↔ a.lo ≤ b.hi ∧ b.lo ≤ a.hi := by
  simp [Region.meets]

theorem State.meetsOther_iff {s : State} {i : ApIx} {r : Region} : s.meetsOther i r = true ↔ ∃ l, l ≠ i
    ∧ (s.aperture l).enabled = true ∧ r.lo ≤ (s.aperture l).range.hi ∧ (s.aperture l).range.lo ≤ r.hi := by
  simp [State.meetsOther, Region.meets_iff, and_assoc]

theorem State.meetsTarget_iff {s : State} {r : Region} : s.meetsTarget r = true ↔
    ∃ c q, ((s.context c).state = .active ∨ (s.context c).state = .draining) ∧ (s.context c).region = some q
      ∧ r.lo ≤ q.hi ∧ q.lo ≤ r.hi := by
  simp [State.meetsTarget, mem_allCtx, Option.any_eq_true, Region.meets_iff]

section Checks

variable {s : State} {ps : List Byte} {i : ApIx} {a : Aperture}

theorem State.apertureCheck_badValue (h : ¬ apertureValues ps = true) : s.apertureCheck ps i a = some .badValue := by
  simp [State.apertureCheck, h]

variable (hv : apertureValues ps = true)
include hv

theorem State.apertureCheck_inUse (h : (s.aperture i).enabled = true ∧ a.enabled = true) :
    s.apertureCheck ps i a = some .inUse := by
  simp [State.apertureCheck, hv, h]

variable (hu : ¬ ((s.aperture i).enabled = true ∧ a.enabled = true))
include hu

theorem State.apertureCheck_overlap (he : a.enabled = true)
    (h : s.meetsOther i a.range = true ∨ s.meetsTarget a.range = true) :
    s.apertureCheck ps i a = some .overlap := by
  have hu : (s.aperture i).enabled = false := by simpa [he] using hu
  rcases h with h | h <;> simp [State.apertureCheck, hv, hu, he, h]

theorem State.apertureCheck_none
    (h : a.enabled = true → ¬ s.meetsOther i a.range = true ∧ ¬ s.meetsTarget a.range = true) :
    s.apertureCheck ps i a = none := by
  cases he : a.enabled with
  | false => simp [State.apertureCheck, hv, he]
  | true =>
    have hu : (s.aperture i).enabled = false := by simpa [he] using hu
    obtain ⟨other, target⟩ := h he
    simp [State.apertureCheck, hv, hu, other, target]

end Checks

/-! ### What SET_APERTURE answers (R119, R178) -/

theorem ownSetAperture_badIndex {s : State} {ps : List Byte} (h : 8 ≤ argByte ps 0 ∨ 8 ≤ argByte ps 6) :
    ownSetAperture ps s = s.refuse .badIndex := by
  unfold ownSetAperture
  rcases h with h | h
  · rw [indexOf_out h]
  · rw [indexOf_out (n := 8) h]
    cases indexOf 8 (argByte ps 0) <;> rfl

section Indexed

variable {s : State} {ps : List Byte} {i : ApIx} {c : Ctx} (hi : indexOf 8 (argByte ps 0) = some i)
  (hc : indexOf 8 (argByte ps 6) = some c)
include hi hc

theorem ownSetAperture_refused {e : Status} (h : s.apertureCheck ps i (apertureOf ps c) = some e) :
    ownSetAperture ps s = s.refuse e := by
  simp only [ownSetAperture, hi, hc, h]

theorem ownSetAperture_accepted (h : s.apertureCheck ps i (apertureOf ps c) = none) :
    ownSetAperture ps s = { state := s.setAperture i (apertureOf ps c), status := .ok } := by
  simp only [ownSetAperture, hi, hc, h]

end Indexed

/-- Settles O45: the checks one by one, each on the parameters that pass those before it. -/
theorem setApertureChecksInOrder : Obligations.SetApertureChecksInOrder := by
  intro s i a₀ a₁ a₂ a₃ size ctx en hw base refused
  refine ⟨fun hout => congrArg _ (State.command_refused hw rfl (ownSetAperture_badIndex hout)), ?_⟩
  intro j c hj hc a valid inUse meetsAperture meetsTarget
  generalize hps : [i, a₀, a₁, a₂, a₃, size, ctx] ++ [en] = ps
  have hij : indexOf 8 (argByte ps 0) = some j := hps ▸ indexOf_eq hj
  have hic : indexOf 8 (argByte ps 6) = some c := hps ▸ indexOf_eq hc
  have record : apertureOf ps c = a := hps ▸ apertureOf_eq i a₀ a₁ a₂ a₃ size ctx en c
  have values : apertureValues ps = true ↔ valid := hps ▸ apertureValues_iff i a₀ a₁ a₂ a₃ size ctx en
  have enabled : a.enabled = true ↔ en = 1 := beq_iff_eq
  have used : ((s.aperture j).enabled = true ∧ a.enabled = true) ↔ inUse := and_congr_right fun _ => enabled
  have other : s.meetsOther j a.range = true ↔ meetsAperture := State.meetsOther_iff
  have target : s.meetsTarget a.range = true ↔ meetsTarget := State.meetsTarget_iff
  have refuses {e : Status} (h : s.apertureCheck ps j a = some e) : refused e := by
    refine congrArg _ (State.command_refused hw rfl ?_)
    rw [hps]
    exact ownSetAperture_refused hij hic (record.symm ▸ h)
  refine ⟨fun hv => ?_, fun hv hu => ?_, fun hv hu he hm => ?_, fun hv hu hm => ⟨?_, ?_⟩⟩
  · exact refuses (State.apertureCheck_badValue (mt values.mp hv))
  · exact refuses (State.apertureCheck_inUse (values.mpr hv) (used.mpr hu))
  · exact refuses (State.apertureCheck_overlap (values.mpr hv) (mt used.mp hu) (enabled.mpr he)
      (hm.imp other.mpr target.mpr))
  · refine congrArg _ (State.command_done hw rfl ?_)
    rw [hps, ← record]
    refine ownSetAperture_accepted hij hic (record.symm ▸ ?_)
    refine State.apertureCheck_none (values.mpr hv) (mt used.mp hu) fun he => ?_
    obtain ⟨noAperture, noTarget⟩ := hm (enabled.mp he)
    exact ⟨mt other.mp noAperture, mt target.mp noTarget⟩
  · obtain ⟨⟨small, -⟩, -⟩ := hv
    have below : base < 256 ^ 4 := decodeLE_lt [a₀, a₁, a₂, a₃]
    have sized : a.sizeExp ≠ 0 := by
      show size.toNat ≠ 0
      omega
    exact Aperture.range_of_base rfl (by omega) sized

end Sys2Proof.Machine
end

section
/-! ISSUE and the request channel (O34), and the responses that no request waits for (O35). -/

namespace Sys2Proof.Machine

open Sys2Proof

/-! ### Which entries may be issued (R134, R138) -/

theorem Span.overlaps_comm (p q : Span) : p.overlaps q = q.overlaps p := by
  unfold Span.overlaps
  grind

theorem hazard_comm (k : Kind) (p : Span) (l : Kind) (q : Span) : hazard k p l q = hazard l q k p := by
  rw [hazard, hazard, p.overlaps_comm q, Bool.or_comm]

theorem State.hazardInFlight_iff {s : State} {k : Kind} {p : Span} : s.hazardInFlight k p = true
    ↔ ∃ u a, s.track u = some a ∧ a.state = .inFlight ∧ hazard a.kind a.span k p = true := by
  simp only [State.hazardInFlight, allTags, List.any_eq_true, List.mem_finRange, true_and]
  refine exists_congr fun u => ?_
  cases s.track u <;> simp

/-- A hazard in flight or with an entry before it keeps the entry in the Issue Queue (R138, conditions 2 and 3). -/
def State.Blocked (s : State) (before : List IqEntry) (o : IqEntry) : Prop :=
  s.hazardInFlight o.kind o.span = true ∨ ∃ b ∈ before, hazard b.kind b.span o.kind o.span = true

theorem State.pickIssue_cons (s : State) (older : List IqEntry) (o : IqEntry) (rest : List IqEntry) :
    (s.Blocked older o → s.pickIssue older (o :: rest) = s.pickIssue (older ++ [o]) rest)
    ∧ (¬ s.Blocked older o → s.pickIssue older (o :: rest) = some (older, o, rest)) := by
  have free : (!s.hazardInFlight o.kind o.span && !older.any fun b => hazard b.kind b.span o.kind o.span) = true
      ↔ ¬ s.Blocked older o := by
    simp [State.Blocked]
  rw [State.pickIssue]
  exact ⟨fun h => if_neg (mt free.mp (not_not_intro h)), fun h => if_pos (free.mpr h)⟩

/-- What holds of every element of a list and the elements before it, from the front. -/
theorem forall_split_cons {α : Type} {P : List α → α → Prop} {y : α} {l : List α} :
    (∀ a o b, y :: l = a ++ o :: b → P a o) ↔ P [] y ∧ ∀ a o b, l = a ++ o :: b → P (y :: a) o := by
  constructor
  · exact fun h => ⟨h [] y l rfl, fun a o b e => h (y :: a) o b (congrArg _ e)⟩
  · rintro ⟨first, others⟩ (_ | ⟨z, a⟩) o b e <;> obtain ⟨rfl, tail⟩ := List.cons.inj e
    · exact first
    · exact others a o b tail

/-- The queue is split at its first entry that is not blocked by those before it. -/
theorem State.pickIssue_eq_some {s : State} {older queue before after : List IqEntry} {e : IqEntry} :
    s.pickIssue older queue = some (before, e, after) ↔ ∃ passed, before = older ++ passed
      ∧ queue = passed ++ e :: after ∧ ¬ s.Blocked before e
      ∧ ∀ a o b, passed = a ++ o :: b → s.Blocked (older ++ a) o := by
  induction queue generalizing older with
  | nil => simp [State.pickIssue]
  | cons o rest ih =>
    obtain ⟨skip, pick⟩ := s.pickIssue_cons older o rest
    by_cases h : s.Blocked older o
    · rw [skip h, ih]
      constructor
      · rintro ⟨passed, rfl, rfl, free, blocked⟩
        refine ⟨o :: passed, by simp, rfl, free, forall_split_cons.mpr ⟨?_, ?_⟩⟩
        · simpa using h
        · simpa using blocked
      · rintro ⟨_ | ⟨y, passed⟩, rfl, e, free, blocked⟩ <;> obtain ⟨rfl, rfl⟩ := List.cons.inj e
        · exact absurd (by simpa using h) free
        · exact ⟨passed, by simp, rfl, free, by simpa using (forall_split_cons.mp blocked).2⟩
    · rw [pick h]
      constructor
      · intro e
        obtain ⟨rfl, rfl, rfl⟩ : older = before ∧ o = _ ∧ rest = after := by simpa using e
        exact ⟨[], by simp, rfl, h, by simp⟩
      · rintro ⟨_ | ⟨y, passed⟩, rfl, e, free, blocked⟩ <;> obtain ⟨rfl, rfl⟩ := List.cons.inj e
        · simp
        · exact absurd (by simpa using (forall_split_cons.mp blocked).1) h

theorem State.freeTag_eq_some {s : State} {m : MemTag} :
    s.freeTag = some m ↔ s.track m = none ∧ ∀ u, u < m → s.track u ≠ none := by
  rw [State.freeTag, allTags, ← Fin.find?_eq_find?_finRange, Fin.find?_eq_some_iff]
  simp only [Option.isNone_iff_eq_none, Option.isNone_eq_false_iff, Option.isSome_iff_ne_none]

/-! ### ISSUE (R132, R138) -/

/-- The state in which the entry `e` between `before` and `after` has been issued on tag `m`. -/
def State.issued (s : State) (m : MemTag) (before : List IqEntry) (e : IqEntry) (after : List IqEntry) : State :=
  { s.setTrack m (some (e.tracked s.timebase)) with iq := before ++ after, channel := some (e.placed m) }

theorem State.issueNext_issues {s : State} {m : MemTag} {before after : List IqEntry} {e : IqEntry}
    (hc : s.channel = none) (hm : s.freeTag = some m) (hp : s.pickIssue [] s.iq = some (before, e, after)) :
    s.issueNext = s.issued m before e after := by
  simp only [State.issueNext, hc, hm, hp]
  rfl

theorem State.issueNext_busy {s : State} (h : s.channel.isSome = true) : s.issueNext = s := by
  obtain ⟨q, hq⟩ := Option.isSome_iff_exists.mp h
  simp only [State.issueNext, hq]

/-- ISSUE issues the first entry that is not blocked, or does nothing. -/
theorem State.issueNext_cases (s : State) : s.issueNext = s ∨ ∃ m before e after, s.iq = before ++ e :: after
    ∧ ¬ s.Blocked before e ∧ s.issueNext = s.issued m before e after := by
  cases hc : s.channel with
  | some q => exact .inl (State.issueNext_busy (by simp [hc]))
  | none =>
    cases hm : s.freeTag with
    | none => exact .inl (by simp only [State.issueNext, hc, hm])
    | some m =>
      cases hp : s.pickIssue [] s.iq with
      | none => exact .inl (by simp only [State.issueNext, hc, hm, hp])
      | some parts =>
        obtain ⟨before, e, after⟩ := parts
        obtain ⟨passed, hb, hq, free, -⟩ := State.pickIssue_eq_some.mp hp
        exact .inr ⟨m, before, e, after, by rwa [hb], free, State.issueNext_issues hc hm hp⟩

/-- Settles O34: the queue splits at the first entry that is not blocked, and the lowest free tag is the one found. -/
theorem issueTakesOldestEligibleEntry : Obligations.IssueTakesOldestEligibleEntry := by
  refine ⟨?_, fun s => ⟨fun h => congrArg _ (State.issueNext_busy h), rfl⟩⟩
  intro s older younger e m blocked hc hq free passed hm lowest
  have same (before : List IqEntry) (o : IqEntry) : s.Blocked before o ↔ blocked before o :=
    or_congr_left State.hazardInFlight_iff
  have split : s.pickIssue [] s.iq = some (older, e, younger) :=
    State.pickIssue_eq_some.mpr ⟨older, rfl, hq, mt (same older e).mp free, fun a o b h => (same a o).mpr (passed a o b h)⟩
  exact congrArg _ (State.issueNext_issues hc (State.freeTag_eq_some.mpr ⟨hm, lowest⟩) split)

/-! ### Responses on quarantined and free tags (R143, R144) -/

/-- Settles O35: the tag is free or QUARANTINED, and the record's fields follow the origin and the status. -/
theorem lateAndStrayResponsesAreReported : Obligations.LateAndStrayResponsesAreReported := by
  intro s m st data hlow
  refine ⟨fun hm => ?_, fun e hm hq => ?_⟩
  · show Host.Outcome.next (s.response m st data) = _
    simp only [State.response, hlow, hm]
    rfl
  · have late : s.response m st data = (s.setTrack m none).post (s.lateRecord m e st) := by
      simp [State.response, hlow, hm, hq]
    refine (congrArg Host.Outcome.next late).trans (congrArg (fun r => Host.Outcome.next (State.post _ r)) ?_)
    unfold State.lateRecord State.trackRecord
    cases e.origin <;> cases st <;> rfl

end Sys2Proof.Machine
end

section
/-! The tracker law (O53) and the queue law (O54): what an operation may leave of the Issue Queue, the Memory Tracker and
the Event Queue, and that every command keeps R135, R140, R169 and R170. -/

namespace Sys2Proof.Machine

open Sys2Proof

/-! ### Requests in flight, and full queues -/

/-- A request of this kind and span is in flight on the tag (R140). -/
def State.Flying (s : State) (m : MemTag) (k : Kind) (p : Span) : Prop :=
  ∃ a, s.track m = some a ∧ a.state = .inFlight ∧ a.kind = k ∧ a.span = p

theorem State.trackerLaw_iff {s : State} : s.TrackerLaw ↔ ∀ m u k p l q, m ≠ u → s.Flying m k p → s.Flying u l q →
    hazard k p l q = false := by
  constructor
  · rintro h m u _ _ _ _ hne ⟨a, ha, fa, rfl, rfl⟩ ⟨b, hb, fb, rfl, rfl⟩
    exact h m u a b hne ha hb fa fb
  · intro h m u a b hne ha hb fa fb
    exact h m u _ _ _ _ hne ⟨a, ha, fa, rfl, rfl⟩ ⟨b, hb, fb, rfl, rfl⟩

/-- The tables that the two laws speak of. -/
def State.traffic (s : State) : List IqEntry × Vector (Option TrackEntry) 32 × List EventRecord × Nat :=
  (s.iq, s.tracker, s.events, s.loss)

/-- From `s` to `t` no request took off, and the queues, if they met R135, R169 and R170, still do. -/
structure State.KeepsTraffic (s t : State) : Prop where
  flights : ∀ m k p, t.Flying m k p → s.Flying m k p
  queues : s.QueueLaw → t.QueueLaw

/-- Requests that were in flight apart from each other still are. -/
theorem State.KeepsTraffic.trackerLaw {s t : State} (h : s.KeepsTraffic t) (law : s.TrackerLaw) : t.TrackerLaw :=
  State.trackerLaw_iff.mpr fun m u k p l q hne hm hu =>
    State.trackerLaw_iff.mp law m u k p l q hne (h.flights m k p hm) (h.flights u l q hu)

theorem State.KeepsTraffic.refl (s : State) : s.KeepsTraffic s := ⟨fun _ _ _ h => h, fun h => h⟩

theorem State.KeepsTraffic.trans {s t r : State} (h : s.KeepsTraffic t) (k : t.KeepsTraffic r) : s.KeepsTraffic r :=
  ⟨fun m l p f => h.flights m l p (k.flights m l p f), fun law => k.queues (h.queues law)⟩

theorem State.KeepsTraffic.ite {s t : State} (h : s.KeepsTraffic t) (p : Prop) [Decidable p] :
    s.KeepsTraffic (if p then t else s) := by
  split
  · exact h
  · exact .refl s

/-- What each turn of a fold keeps, the fold keeps. -/
theorem State.foldl_keepsTraffic {α : Type} {f : State → α → State} (h : ∀ (s : State) (a : α), s.KeepsTraffic (f s a))
    (l : List α) (s : State) : s.KeepsTraffic (l.foldl f s) :=
  List.foldlRecOn (motive := fun r : State => s.KeepsTraffic r) l f (.refl s) fun r k a _ => k.trans (h r a)

/-- What touches none of the tables keeps both laws. -/
theorem State.KeepsTraffic.of_eq {s t : State} (h : t.traffic = s.traffic) : s.KeepsTraffic t := by
  obtain ⟨iq, tracker, events, loss⟩ : t.iq = s.iq ∧ t.tracker = s.tracker ∧ t.events = s.events ∧ t.loss = s.loss := by
    simpa [State.traffic] using h
  exact ⟨fun m k p f => by simpa only [State.Flying, State.track, tracker] using f,
    fun law => by simpa only [State.QueueLaw, iq, events, loss] using law⟩

theorem State.Resettled.keepsTraffic {s t : State} (h : s.Resettled t) : s.KeepsTraffic t :=
  .of_eq (by simp only [State.traffic, h.iq, h.tracker, h.events, h.loss])

theorem State.KeepsTraffic.settle {s t : State} (h : s.KeepsTraffic t) : s.KeepsTraffic t.settle :=
  h.trans t.settle_resettled.keepsTraffic

theorem State.setContext_keepsTraffic (s : State) (c : Ctx) (x : Context) : s.KeepsTraffic (s.setContext c x) :=
  .of_eq rfl

theorem State.setSlot_keepsTraffic (s : State) (t : HostTag) (x : Option HostSlot) : s.KeepsTraffic (s.setSlot t x) :=
  .of_eq rfl

theorem State.setPacing_keepsTraffic (s : State) (f : Ctx) (l : Option PacingLink) : s.KeepsTraffic (s.setPacing f l) :=
  .of_eq rfl

/-- A record joins while there is room; a dropped one is counted while the queue is full (R169). -/
theorem State.QueueLaw.post {s : State} (h : s.QueueLaw) (e : EventRecord) : (s.post e).QueueLaw := by
  obtain ⟨hiq, hevents, hloss, hfull⟩ := h
  by_cases room : s.events.length < 32
  · rw [State.post_room room]
    refine ⟨hiq, ?_, hloss, fun lost => ?_⟩
    · rw [List.length_append]
      exact room
    · exact absurd (hfull lost) (by omega)
  · rw [State.post_full room]
    exact ⟨hiq, hevents, Nat.min_le_left _ _, fun _ => by show s.events.length = 32; omega⟩

theorem State.post_keepsTraffic (s : State) (e : EventRecord) : s.KeepsTraffic (s.post e) :=
  ⟨fun m k p f => by simpa only [State.Flying, State.post_track] using f, fun law => law.post e⟩

/-- Detachment sets flags of requests that stand (R139). -/
theorem State.detach_keepsTraffic (s : State) (p : Origin → Bool) (b : Bool) : s.KeepsTraffic (s.detach p b) := by
  refine ⟨fun m k q ⟨a, ha, fa, hk, hq⟩ => ?_, fun law => ?_⟩
  · rw [State.detach_track, Option.map_eq_some_iff] at ha
    obtain ⟨a', ha', rfl⟩ := ha
    exact ⟨a', ha', by split at fa <;> exact fa, by split at hk <;> exact hk, by split at hq <;> exact hq⟩
  · simpa [State.QueueLaw, State.detach] using law

/-- A tag that is freed or QUARANTINED is not in flight any longer (R140, R141, R145). -/
theorem State.setTrack_keepsTraffic (s : State) (m : MemTag) {x : Option TrackEntry}
    (h : ∀ e, x = some e → e.state ≠ .inFlight) : s.KeepsTraffic (s.setTrack m x) := by
  refine ⟨fun u k p ⟨a, ha, fa, hk, hp⟩ => ?_, fun law => law⟩
  rw [State.track_setTrack] at ha
  split at ha
  · exact absurd fa (h a ha)
  · exact ⟨a, ha, fa, hk, hp⟩

/-! ### Answers, head checks and link breaks (R36, R37, R106, R115) -/

theorem State.answer_keepsTraffic (s : State) (t : HostTag) (why : Option HostReason) :
    s.KeepsTraffic (s.answer t why) := by
  unfold State.answer
  split
  · exact .refl s
  · split
    · exact .refl s
    · dsimp only
      split
      · exact .of_eq rfl
      · refine State.KeepsTraffic.trans ?_ (State.post_keepsTraffic _ _)
        exact .of_eq rfl

theorem State.finishHead_keepsTraffic (s : State) (c : Ctx) (why : Option HostReason) :
    s.KeepsTraffic (s.finishHead c why) := by
  unfold State.finishHead
  split
  · exact .refl s
  · exact (s.answer_keepsTraffic _ why).trans (State.setContext_keepsTraffic _ c _)

theorem State.promoteN_keepsTraffic (c : Ctx) (n : Nat) (s : State) : s.KeepsTraffic (State.promoteN c n s) := by
  have accepted (t : HostTag) (x : HostSlot) (k : Nat) (s : State) :
      s.KeepsTraffic ((s.acceptHead c t x k).fillAt c) := .of_eq rfl
  induction n generalizing s with
  | zero => exact .refl s
  | succ n ih =>
    rcases s.promoteN_succ c n with e | ⟨t, x, r, why, -, rfl | ⟨k, rfl⟩, e⟩ | ⟨t, x, k, -, e⟩ <;> rw [e]
    · exact .refl s
    · exact (State.finishHead_keepsTraffic _ c why).trans (ih _)
    · exact ((accepted t x _ s).trans (State.finishHead_keepsTraffic _ c why)).trans (ih _)
    · exact accepted t x _ s

theorem State.promote_keepsTraffic (s : State) (c : Ctx) : s.KeepsTraffic (s.promote c) :=
  State.promoteN_keepsTraffic c _ s

theorem State.finishEarly_keepsTraffic (s : State) (c : Ctx) (why : HostReason) :
    s.KeepsTraffic (s.finishEarly c why) :=
  (s.finishHead_keepsTraffic c _).trans (State.promote_keepsTraffic _ c)

theorem State.answerAll_keepsTraffic (s : State) (c : Ctx) (why : HostReason) : s.KeepsTraffic (s.answerAll c why) :=
  (State.foldl_keepsTraffic (fun s t => s.answer_keepsTraffic t (some why)) _ s).trans
    (State.setContext_keepsTraffic _ c _)

theorem State.breakLinks_keepsTraffic (s : State) (c : Ctx) (why : Reason) : s.KeepsTraffic (s.breakLinks c why) := by
  refine State.foldl_keepsTraffic (fun r f => ?_) allCtx s
  rcases r.breakLink_cases c why f with e | ⟨l, -, -, -, e⟩ <;> rw [e]
  · exact .refl r
  · rw [State.linkCut]
    exact ((r.setPacing_keepsTraffic f _).trans (State.post_keepsTraffic _ _)).trans (State.promote_keepsTraffic _ f)

/-! ### Walks that launch, fault, end or are aborted (R23, R24, R28, R30, R32, R34) -/

theorem State.faultContext_keepsTraffic (s : State) (c : Ctx) (why : FaultReason) :
    s.KeepsTraffic (s.faultContext c why) := by
  rw [s.faultContext_eq, State.faulting]
  exact ((s.answerAll_keepsTraffic c _).trans (State.setContext_keepsTraffic _ c _)).trans
    (State.breakLinks_keepsTraffic _ c _)

theorem State.launch_keepsTraffic (s : State) (c : Ctx) (i : DescIx) : s.KeepsTraffic (s.launch c i) := by
  cases h : s.launchCheck (s.desc i) with
  | none =>
    rw [State.launch_accepted h, State.relaunched, State.rearm_eq]
    exact ((s.setContext_keepsTraffic c _).trans (State.setPacing_keepsTraffic _ c _)).trans
      (State.promote_keepsTraffic _ c)
  | some why =>
    rw [State.launch_refused h]
    exact (s.post_keepsTraffic _).trans (State.faultContext_keepsTraffic _ c _)

theorem State.launchNext_keepsTraffic (s : State) (c : Ctx) : s.KeepsTraffic (s.launchNext c) := by
  cases h : (s.context c).launchQ with
  | nil => rw [State.launchNext_nil h]; exact .refl s
  | cons i q =>
    rw [State.launchNext_cons h]
    exact (s.setContext_keepsTraffic c _).trans (State.launch_keepsTraffic _ c i)

theorem State.completeDrain_keepsTraffic (s : State) (c : Ctx) : s.KeepsTraffic (s.completeDrain c) := by
  unfold State.completeDrain
  dsimp only
  have reported := (s.post_keepsTraffic (s.walkDoneRecord c)).ite
    (((s.context c).snapshot.map Descriptor.doneEvent).getD false = true)
  generalize (if ((s.context c).snapshot.map Descriptor.doneEvent).getD false = true then s.post (s.walkDoneRecord c)
    else s) = r at reported
  refine reported.trans ?_
  split
  · exact r.launch_keepsTraffic c _
  · split
    · exact (r.setContext_keepsTraffic c _).trans (State.answerAll_keepsTraffic _ c _)
    · exact r.launchNext_keepsTraffic c

theorem State.drainIfDone_keepsTraffic (s : State) (c : Ctx) : s.KeepsTraffic (s.drainIfDone c) :=
  (s.completeDrain_keepsTraffic c).ite _

theorem State.discardReadAhead_keepsTraffic (s : State) (c : Ctx) : s.KeepsTraffic (s.discardReadAhead c) :=
  (s.setContext_keepsTraffic c _).trans (State.detach_keepsTraffic _ _ _)

/-- Discarded lines leave their requests in memory detached (R90, R93, R139). -/
theorem State.discardDetach_keepsTraffic (s : State) (c : Ctx) (b : Bool) :
    s.KeepsTraffic ((s.discardLines c).detach (Origin.isWriteOf c) b) := by
  have discarded : s.KeepsTraffic (s.discardLines c) := .of_eq rfl
  exact discarded.trans (State.detach_keepsTraffic _ _ b)

theorem State.endWalk_keepsTraffic (s : State) (c : Ctx) (why : EndCause) : s.KeepsTraffic (s.endWalk c why) :=
  ((s.setContext_keepsTraffic c ((s.context c).ended why)).trans
    ((State.discardReadAhead_keepsTraffic _ c).ite _)).trans (State.drainIfDone_keepsTraffic _ c)

theorem State.abort_keepsTraffic (s : State) (c : Ctx) (breaks purge : Bool) :
    s.KeepsTraffic (s.abort c breaks purge) := by
  have cleared : s.KeepsTraffic (s.cleared c) :=
    ((s.discardDetach_keepsTraffic c true).trans (State.discardReadAhead_keepsTraffic _ c)).trans
      (State.answerAll_keepsTraffic _ c _)
  rw [s.abort_eq]
  exact (cleared.trans ((State.breakLinks_keepsTraffic _ c _).ite _)).trans (State.setContext_keepsTraffic _ c _)

/-! ### Memory's answers and timeouts (R65, R66, R90, R127, R141 to R145) -/

theorem State.lineFailed_keepsTraffic (s : State) (c : Ctx) (n : BitVec 16) (l : Nat) (b : Bool) (why : FaultReason)
    (r : Reason) : s.KeepsTraffic (s.lineFailed c n l b why r) :=
  (s.post_keepsTraffic _).trans
    (((State.discardDetach_keepsTraffic _ c false).trans (State.faultContext_keepsTraffic _ c why)).ite _)

theorem State.readFailed_keepsTraffic (s : State) (c : Ctx) (n : BitVec 16) (q : Nat) (r : Reason) :
    s.KeepsTraffic (s.readFailed c n q r) := by
  unfold State.readFailed
  split
  · exact .refl s
  · exact (s.setContext_keepsTraffic c _).trans (State.post_keepsTraffic _ _)

theorem State.readOkay_keepsTraffic (s : State) (c : Ctx) (q : Nat) (data : List Byte) :
    s.KeepsTraffic (s.readOkay c q data) := by
  unfold State.readOkay
  split
  · exact .refl s
  · split <;> exact s.setContext_keepsTraffic c _

theorem State.hostOkay_keepsTraffic (s : State) (u : HostTag) (data : List Byte) :
    s.KeepsTraffic (s.hostOkay u data) := by
  unfold State.hostOkay
  split
  · exact .refl s
  · dsimp only
    split
    · exact .refl s
    · exact (s.setSlot_keepsTraffic u _).trans (State.answer_keepsTraffic _ u none)

theorem State.deliver_keepsTraffic (s : State) (e : TrackEntry) (st : MemStatus) (data : List Byte) :
    s.KeepsTraffic (s.deliver e st data) := by
  unfold State.deliver
  split
  · exact s.hostOkay_keepsTraffic _ _
  · exact s.answer_keepsTraffic _ _
  · split
    · exact .refl s
    · exact s.readOkay_keepsTraffic _ _ _
  · split
    · exact .refl s
    · exact s.readFailed_keepsTraffic _ _ _ _
  · split
    · exact .refl s
    · exact s.drainIfDone_keepsTraffic _
  · exact s.lineFailed_keepsTraffic _ _ _ _ _ _

theorem State.response_keepsTraffic (s : State) (m : MemTag) (st : MemStatus) (data : List Byte) :
    s.KeepsTraffic (s.response m st data) := by
  unfold State.response
  split
  · exact .refl s
  · split
    · exact s.post_keepsTraffic _
    · refine (s.setTrack_keepsTraffic m (x := none) (by simp)).trans ?_
      dsimp only
      split
      · exact State.post_keepsTraffic _ _
      · exact (State.deliver_keepsTraffic _ _ st data).settle

theorem State.tellTimeout_keepsTraffic (s : State) (e : TrackEntry) : s.KeepsTraffic (s.tellTimeout e) := by
  unfold State.tellTimeout
  split
  · exact s.answer_keepsTraffic _ _
  · split
    · exact .refl s
    · exact s.readFailed_keepsTraffic _ _ _ _
  · exact s.lineFailed_keepsTraffic _ _ _ _ _ _

theorem State.quarantine_keepsTraffic (s : State) (m : MemTag) (e : TrackEntry) : s.KeepsTraffic (s.quarantine m e) := by
  have reported : s.KeepsTraffic (s.reportTimeout m e) :=
    (s.setTrack_keepsTraffic m (by simp)).trans (State.post_keepsTraffic _ _)
  by_cases h : (s.reportTimeout m e).quarantined = 32
  · have chosen : s.KeepsTraffic (s.choosePlace m e) := reported.trans (.of_eq rfl)
    rcases State.quarantine_blocked h with e' | e' <;> rw [e']
    · exact (chosen.trans (State.post_keepsTraffic _ _)).trans (State.tellTimeout_keepsTraffic _ e)
    · exact (chosen.trans (State.tellTimeout_keepsTraffic _ e)).trans (State.post_keepsTraffic _ _)
  · rw [State.quarantine_unblocked h]
    exact reported.trans (State.tellTimeout_keepsTraffic _ e)

theorem State.timeoutRequest_keepsTraffic (s : State) (m : MemTag) : s.KeepsTraffic (s.timeoutRequest m) := by
  unfold State.timeoutRequest
  split
  · exact (s.quarantine_keepsTraffic m _).ite _
  · exact .refl s

/-! ### Taken elements, host requests and timers (R15, R35, R38, R42, R114, R120, R163) -/

theorem State.afterMove_keepsTraffic (s : State) (c : Ctx) (k : Taking) : s.KeepsTraffic (s.afterMove c k) := by
  have moved : s.KeepsTraffic (s.moveElement c k) := .of_eq (by rw [s.moveElement_rest c k]; rfl)
  refine moved.trans ?_
  unfold State.afterMove State.advanceTake
  dsimp only
  split
  · exact (State.setContext_keepsTraffic _ c _).trans (State.post_keepsTraffic _ _)
  · exact State.setContext_keepsTraffic _ c _

theorem State.afterTake_keepsTraffic (s : State) (c : Ctx) : s.KeepsTraffic (s.afterTake c) := by
  have answered := (s.finishHead_keepsTraffic c (s.headReason c)).ite (s.demand c = 0)
  unfold State.afterTake
  dsimp only
  generalize (if s.demand c = 0 then s.finishHead c (s.headReason c) else s) = r at answered
  have cut (why : HostReason) (e : EndCause) : r.KeepsTraffic ((r.cutHead c why).endWalk c e) :=
    ((r.finishHead_keepsTraffic c (some why)).ite _).trans (State.endWalk_keepsTraffic _ c e)
  refine answered.trans ?_
  split
  · exact cut _ _
  · split
    · exact cut _ _
    · exact r.promote_keepsTraffic c

theorem State.elementTake_keepsTraffic (s : State) (c : Ctx) : s.KeepsTraffic (s.elementTake c) := by
  unfold State.elementTake
  split
  · exact (State.KeepsTraffic.refl s).settle
  · split
    · exact ((s.afterMove_keepsTraffic c _).trans (State.afterTake_keepsTraffic _ c)).settle
    · exact (State.KeepsTraffic.refl s).settle

theorem State.walkAccess_keepsTraffic (s : State) (t : HostTag) (c : Ctx) : s.KeepsTraffic (s.walkAccess t c) := by
  unfold State.walkAccess
  dsimp only
  split
  · exact s.answer_keepsTraffic t _
  · exact s.answer_keepsTraffic t _
  · exact (s.setContext_keepsTraffic c _).trans (State.promote_keepsTraffic _ c)
  · exact s.setContext_keepsTraffic c _

theorem State.arrival_keepsTraffic (s : State) (r : HostRequest) : s.KeepsTraffic (s.arrival r) := by
  have accepted : s.KeepsTraffic (s.accept r) := by
    unfold State.accept
    split
    · exact (s.setSlot_keepsTraffic _ _).trans (State.answer_keepsTraffic _ _ _)
    · split
      · exact (s.setSlot_keepsTraffic _ _).trans (State.answer_keepsTraffic _ _ _)
      · exact (s.setSlot_keepsTraffic _ _).trans (State.walkAccess_keepsTraffic _ _ _)
      · exact .of_eq rfl
  unfold State.arrival
  split
  · exact .refl s
  · split
    · exact s.post_keepsTraffic _
    · exact accepted.settle

theorem State.responseSent_keepsTraffic (s : State) : s.KeepsTraffic s.responseSent := by
  unfold State.responseSent
  split <;> exact .of_eq rfl

theorem State.issueLines_keepsTraffic (s : State) (c : Ctx) (p : GatherLine → Bool) :
    s.KeepsTraffic (s.issueLines c p) := s.setContext_keepsTraffic c _

theorem State.expire_keepsTraffic (s : State) (i : Timer) : s.KeepsTraffic (s.expire i) := by
  have decided (r : State) : r.KeepsTraffic r.decideAfresh := r.decideAfresh_resettled.keepsTraffic
  cases i with
  | head c => exact ((s.finishEarly_keepsTraffic c _).trans (decided _)).ite _
  | request m => exact ((s.timeoutRequest_keepsTraffic m).trans (decided _)).ite _

theorem State.retime_keepsTraffic (s : State) (new : Settings) : s.KeepsTraffic (s.retime new) := by
  have set : s.KeepsTraffic (s.withSettings new) := .of_eq rfl
  have turns : (s.compared new).KeepsTraffic (s.afterTurns new) :=
    State.foldl_keepsTraffic State.expire_keepsTraffic _ _
  exact ((set.trans (s.compared_resettled new).keepsTraffic).trans turns).trans
    (s.afterTurns_resettled new).keepsTraffic

/-! ### Admissions (R135 to R137) -/

/-- The arbiter admits while the Issue Queue has room, so the request that joins is the sixteenth at most. -/
theorem State.KeepsTraffic.of_admission {s t : State} {x : Source} (h : s.admitsNext x = true) (q : IqEntry)
    (ht : t.traffic = { s with iq := s.iq ++ [q] }.traffic) : s.KeepsTraffic t := by
  obtain ⟨room, -⟩ := State.nextAdmission_eq_some.mp (by simpa [State.admitsNext] using h)
  have joined : s.KeepsTraffic { s with iq := s.iq ++ [q] } :=
    ⟨fun _ _ _ f => f, fun ⟨_, law⟩ => ⟨by rw [List.length_append]; exact room, law⟩⟩
  exact joined.trans (.of_eq ht)

theorem State.passthroughAdmission_keepsTraffic (s : State) : s.KeepsTraffic s.passthroughAdmission := by
  unfold State.passthroughAdmission
  split
  · rename_i next
    split
    · rename_i t x _
      exact State.KeepsTraffic.settle (.of_admission next (x.req.iqEntry t) (by rw [State.admitPassthrough_eq]; rfl))
    · exact .refl s
  · exact .refl s

theorem State.readAheadAdmission_keepsTraffic (s : State) (c : Ctx) : s.KeepsTraffic (s.readAheadAdmission c) := by
  unfold State.readAheadAdmission
  split
  · rename_i next
    split
    · rename_i e _
      exact State.KeepsTraffic.settle (.of_admission next (readRequest c (s.context c).serial e) rfl)
    · exact .refl s
  · exact .refl s

theorem State.gatherLineAdmission_keepsTraffic (s : State) (c : Ctx) : s.KeepsTraffic (s.gatherLineAdmission c) := by
  unfold State.gatherLineAdmission
  split
  · rename_i next
    split
    · rename_i l _
      exact State.KeepsTraffic.settle (.of_admission next (l.request c (s.context c).serial) rfl)
    · exact .refl s
  · exact .refl s

/-! ### ISSUE (R138) -/

/-- A request that takes off forms no hazard with one in flight (R138, R140). -/
theorem State.TrackerLaw.issued {s : State} (h : s.TrackerLaw) {e : IqEntry}
    (free : s.hazardInFlight e.kind e.span ≠ true) (m : MemTag) (before after : List IqEntry) :
    (s.issued m before e after).TrackerLaw := by
  have flying {u : MemTag} {k : Kind} {p : Span} (f : (s.issued m before e after).Flying u k p) :
      if m = u then k = e.kind ∧ p = e.span else s.Flying u k p := by
    obtain ⟨a, ha, fa, rfl, rfl⟩ := f
    replace ha : (if m = u then some (e.tracked s.timebase) else s.track u) = some a :=
      (s.track_setTrack m u _).symm.trans ha
    split at ha
    · rename_i hmu
      obtain rfl := Option.some.inj ha
      rw [if_pos hmu]
      exact ⟨rfl, rfl⟩
    · rename_i hmu
      rw [if_neg hmu]
      exact ⟨a, ha, fa, rfl, rfl⟩
  have apart {u : MemTag} {k : Kind} {p : Span} (f : s.Flying u k p) : hazard k p e.kind e.span = false := by
    obtain ⟨a, ha, fa, rfl, rfl⟩ := f
    exact Bool.eq_false_iff.mpr fun hz => free (State.hazardInFlight_iff.mpr ⟨u, a, ha, fa, hz⟩)
  refine State.trackerLaw_iff.mpr fun u v k p l q hne hu hv => ?_
  replace hu := flying hu
  replace hv := flying hv
  split at hu
  · rename_i hmu
    obtain ⟨rfl, rfl⟩ := hu
    rw [if_neg (hmu ▸ hne)] at hv
    rw [hazard_comm]
    exact apart hv
  · split at hv
    · obtain ⟨rfl, rfl⟩ := hv
      exact apart hu
    · exact State.trackerLaw_iff.mp h u v k p l q hne hu hv

/-- The entry that is issued leaves the Issue Queue (R138). -/
theorem State.QueueLaw.issued {s : State} (h : s.QueueLaw) {before after : List IqEntry} {e : IqEntry}
    (hq : s.iq = before ++ e :: after) (m : MemTag) : (s.issued m before e after).QueueLaw := by
  obtain ⟨hiq, rest⟩ := h
  refine ⟨?_, rest⟩
  rw [hq] at hiq
  simp only [State.issued, List.length_append, List.length_cons] at hiq ⊢
  omega

theorem State.TrackerLaw.issueNext {s : State} (h : s.TrackerLaw) : s.issueNext.TrackerLaw := by
  rcases s.issueNext_cases with same | ⟨m, before, e, after, -, free, issues⟩
  · rwa [same]
  · rw [issues]
    exact h.issued (fun hz => free (.inl hz)) m before after

theorem State.QueueLaw.issueNext {s : State} (h : s.QueueLaw) : s.issueNext.QueueLaw := by
  rcases s.issueNext_cases with same | ⟨m, before, e, after, hq, -, issues⟩
  · rwa [same]
  · rw [issues]
    exact h.issued hq m

/-! ### The commands of the Management Link -/

/-- A command keeps what its owner keeps. -/
theorem State.command_keepsTraffic (s : State) (k : Command) (b : Byte) {owner : List Byte → State → Reply}
    (ho : ∀ ps, s.KeepsTraffic (owner ps s).state) : s.KeepsTraffic (s.command k b owner) := by
  unfold State.command
  split
  · exact (ho _).trans (.of_eq rfl)
  · exact .refl s

theorem ownQueueWalk_keepsTraffic (ps : List Byte) (s : State) : s.KeepsTraffic (ownQueueWalk ps s).state := by
  unfold ownQueueWalk
  split
  · dsimp only
    split
    · exact (s.launch_keepsTraffic _ _).settle
    · split
      · exact s.setContext_keepsTraffic _ _
      · exact .refl s
  · exact .refl s

theorem ownEndWalk_keepsTraffic (ps : List Byte) (s : State) : s.KeepsTraffic (ownEndWalk ps s).state := by
  unfold ownEndWalk
  split
  · exact .refl s
  · split
    · exact (((s.finishHead_keepsTraffic _ _).ite _).trans (State.endWalk_keepsTraffic _ _ _)).settle
    · exact .refl s

theorem ownAbortWalk_keepsTraffic (ps : List Byte) (s : State) : s.KeepsTraffic (ownAbortWalk ps s).state := by
  unfold ownAbortWalk
  split
  · exact .refl s
  · split
    · exact ((s.abort_keepsTraffic _ _ _).trans (State.launchNext_keepsTraffic _ _)).settle
    · exact .refl s

theorem ownClearFault_keepsTraffic (ps : List Byte) (s : State) : s.KeepsTraffic (ownClearFault ps s).state := by
  unfold ownClearFault
  split
  · exact .refl s
  · split
    · exact ((s.setContext_keepsTraffic _ _).trans (State.launchNext_keepsTraffic _ _)).settle
    · exact .refl s

theorem ownFlushLines_keepsTraffic (ps : List Byte) (s : State) : s.KeepsTraffic (ownFlushLines ps s).state := by
  unfold ownFlushLines
  split
  · exact .refl s
  · exact (s.setContext_keepsTraffic _ _).settle

theorem ownSetPacing_keepsTraffic (ps : List Byte) (s : State) : s.KeepsTraffic (ownSetPacing ps s).state := by
  unfold ownSetPacing
  split
  · split
    · exact .refl s
    · exact ((s.setPacing_keepsTraffic _ _).trans (State.promote_keepsTraffic _ _)).settle
  · exact .refl s

theorem ownClearPacing_keepsTraffic (ps : List Byte) (s : State) : s.KeepsTraffic (ownClearPacing ps s).state := by
  unfold ownClearPacing
  split
  · exact .refl s
  · exact (s.setPacing_keepsTraffic _ _).settle

theorem ownSetTimers_keepsTraffic (ps : List Byte) (s : State) : s.KeepsTraffic (ownSetTimers ps s).state := by
  unfold ownSetTimers
  split
  · exact s.retime_keepsTraffic _
  · exact .refl s

theorem ownSoftReset_keepsTraffic (ps : List Byte) (s : State) : s.KeepsTraffic (ownSoftReset ps s).state := by
  have aborted : s.KeepsTraffic s.abortAll :=
    State.foldl_keepsTraffic (fun r c => r.abort_keepsTraffic c false true) allCtx s
  have armed (r : State) : r.KeepsTraffic r.armAll := .of_eq rfl
  exact ((aborted.trans (armed _)).trans (State.post_keepsTraffic _ _)).settle

/-- The oldest record leaves, and EVENTS_LOST with the loss count takes its place (R170). -/
theorem State.QueueLaw.removeOldest {s : State} (h : s.QueueLaw) {e : EventRecord} {rest : List EventRecord}
    (he : s.events = e :: rest) : (s.removeOldest rest).QueueLaw := by
  obtain ⟨hiq, hevents, hloss, hfull⟩ := h
  rw [he, List.length_cons] at hevents hfull
  unfold State.removeOldest
  split
  · rename_i none
    exact ⟨hiq, Nat.le_of_succ_le hevents, hloss, fun lost => absurd none lost⟩
  · refine ⟨hiq, ?_, Nat.zero_le _, fun lost => absurd rfl lost⟩
    rw [List.length_append]
    exact hevents

theorem ownPopEvent_keepsTraffic (ps : List Byte) (s : State) : s.KeepsTraffic (ownPopEvent ps s).state := by
  unfold ownPopEvent
  split
  · exact .refl s
  · rename_i e rest he
    refine ⟨fun m k p f => ?_, fun law => law.removeOldest he⟩
    unfold State.removeOldest at f
    split at f <;> exact f

/-! ### The owners and events that touch none of the tables -/

theorem State.putDesc_traffic (s : State) (put : Option (DescIx × Descriptor)) : (s.putDesc put).traffic = s.traffic := by
  unfold State.putDesc; split <;> rfl

theorem State.writeDescEnd_traffic (s : State) (b : Byte) : (s.writeDescEnd b).traffic = s.traffic := by
  unfold State.writeDescEnd
  split
  · split
    · rfl
    · exact s.putDesc_traffic _
  · rfl

theorem State.linkByte_traffic (s : State) (b : Byte) : (s.linkByte b).traffic = s.traffic := by
  unfold State.linkByte
  dsimp only
  split
  · rfl
  · rfl
  · rfl
  · rfl
  · split
    · rfl
    · split <;> rfl
  · split
    · split
      · rfl
      · exact s.putDesc_traffic _
    · split <;> rfl

theorem State.frameBegin_traffic (s : State) : s.frameBegin.traffic = s.traffic := by
  unfold State.frameBegin
  split
  · rfl
  · split <;> rfl

theorem ownReadDesc_traffic (ps : List Byte) (s : State) : (ownReadDesc ps s).state.traffic = s.traffic := by
  unfold ownReadDesc; split <;> rfl

theorem ownClearDesc_traffic (ps : List Byte) (s : State) : (ownClearDesc ps s).state.traffic = s.traffic := by
  unfold ownClearDesc; split <;> rfl

theorem ownSetAperture_traffic (ps : List Byte) (s : State) : (ownSetAperture ps s).state.traffic = s.traffic := by
  unfold ownSetAperture
  split
  · split <;> rfl
  · rfl

theorem ownReadAperture_traffic (ps : List Byte) (s : State) : (ownReadAperture ps s).state.traffic = s.traffic := by
  unfold ownReadAperture; split <;> rfl

theorem ownReadContext_traffic (ps : List Byte) (s : State) : (ownReadContext ps s).state.traffic = s.traffic := by
  unfold ownReadContext; split <;> rfl

theorem ownReadPacing_traffic (ps : List Byte) (s : State) : (ownReadPacing ps s).state.traffic = s.traffic := by
  unfold ownReadPacing; split <;> rfl

theorem ownPeekEvent_traffic (ps : List Byte) (s : State) : (ownPeekEvent ps s).state.traffic = s.traffic := by
  unfold ownPeekEvent; split <;> rfl

theorem ownSetAttentionMask_traffic (ps : List Byte) (s : State) :
    (ownSetAttentionMask ps s).state.traffic = s.traffic := by
  unfold ownSetAttentionMask; split <;> rfl

/-! ### Every command -/

theorem State.hardwareReset_keepsTraffic (s : State) : s.KeepsTraffic s.hardwareReset := by
  obtain ⟨-, queues, -⟩ := resetMeetsTheLaws
  refine ⟨fun m k p ⟨a, ha, _⟩ => ?_, fun _ => queues⟩
  cases (State.reset_track m).symm.trans ha

/-- Every command but ISSUE keeps both laws, and lets no request take off. -/
theorem exec_keepsTraffic {i : Instr} (hissue : i ≠ .issue) (s : State) : ∃ t, exec i s = .next t ∧ s.KeepsTraffic t := by
  have owner (k : Command) (b : Byte) {own : List Byte → State → Reply}
      (ho : ∀ ps s, s.KeepsTraffic (own ps s).state) : s.KeepsTraffic (s.command k b own) :=
    s.command_keepsTraffic k b fun ps => ho ps s
  have still (k : Command) (b : Byte) {own : List Byte → State → Reply}
      (ho : ∀ ps s, (own ps s).state.traffic = s.traffic) : s.KeepsTraffic (s.command k b own) :=
    owner k b fun ps s => .of_eq (ho ps s)
  cases i with
  | hardwareReset => exact ⟨_, rfl, s.hardwareReset_keepsTraffic⟩
  | rstRise => exact ⟨_, rfl, .of_eq rfl⟩
  | timebaseTick => exact ⟨_, rfl, by split <;> exact .of_eq rfl⟩
  | hostRequestArrival r => exact ⟨_, rfl, s.arrival_keepsTraffic r⟩
  | hostResponseSent => exact ⟨_, rfl, s.responseSent_keepsTraffic⟩
  | elementTake c => exact ⟨_, rfl, s.elementTake_keepsTraffic c⟩
  | drainComplete c => exact ⟨_, rfl, (s.completeDrain_keepsTraffic c).settle.ite _⟩
  | passthroughAdmission => exact ⟨_, rfl, s.passthroughAdmission_keepsTraffic⟩
  | readAheadAdmission c => exact ⟨_, rfl, s.readAheadAdmission_keepsTraffic c⟩
  | gatherLineAdmission c => exact ⟨_, rfl, s.gatherLineAdmission_keepsTraffic c⟩
  | issue => exact absurd rfl hissue
  | memoryRequestTaken => exact ⟨_, rfl, .of_eq rfl⟩
  | memoryResponse m st data => exact ⟨_, rfl, s.response_keepsTraffic m st data⟩
  | memoryTimeout m => exact ⟨_, rfl, (s.timeoutRequest_keepsTraffic m).settle.ite _⟩
  | gatherAgeExpiry c line => exact ⟨_, rfl, (s.issueLines_keepsTraffic c _).settle.ite _⟩
  | paceTimeout c => exact ⟨_, rfl, (s.finishEarly_keepsTraffic c _).settle.ite _⟩
  | frameEnd => exact ⟨_, rfl, .of_eq rfl⟩
  | unknownCommand => exact ⟨_, rfl, by split <;> exact .of_eq rfl⟩
  | identify => exact ⟨_, rfl, still _ _ fun _ _ => rfl⟩
  | writeDesc b => exact ⟨_, rfl, .of_eq (s.writeDescEnd_traffic b)⟩
  | readDesc => exact ⟨_, rfl, still _ _ ownReadDesc_traffic⟩
  | clearDesc => exact ⟨_, rfl, still _ _ ownClearDesc_traffic⟩
  | setAperture => exact ⟨_, rfl, still _ _ ownSetAperture_traffic⟩
  | readAperture => exact ⟨_, rfl, still _ _ ownReadAperture_traffic⟩
  | queueWalk => exact ⟨_, rfl, owner _ _ ownQueueWalk_keepsTraffic⟩
  | endWalk => exact ⟨_, rfl, owner _ _ ownEndWalk_keepsTraffic⟩
  | abortWalk => exact ⟨_, rfl, owner _ _ ownAbortWalk_keepsTraffic⟩
  | clearFault => exact ⟨_, rfl, owner _ _ ownClearFault_keepsTraffic⟩
  | flushLines => exact ⟨_, rfl, owner _ _ ownFlushLines_keepsTraffic⟩
  | readContext => exact ⟨_, rfl, still _ _ ownReadContext_traffic⟩
  | setPacing => exact ⟨_, rfl, owner _ _ ownSetPacing_keepsTraffic⟩
  | clearPacing => exact ⟨_, rfl, owner _ _ ownClearPacing_keepsTraffic⟩
  | readPacing => exact ⟨_, rfl, still _ _ ownReadPacing_traffic⟩
  | setTimers => exact ⟨_, rfl, owner _ _ ownSetTimers_keepsTraffic⟩
  | readTimers => exact ⟨_, rfl, still _ _ fun _ _ => rfl⟩
  | popEvent => exact ⟨_, rfl, owner _ _ ownPopEvent_keepsTraffic⟩
  | peekEvent => exact ⟨_, rfl, still _ _ ownPeekEvent_traffic⟩
  | readEventStatus => exact ⟨_, rfl, still _ _ fun _ _ => rfl⟩
  | setAttentionMask => exact ⟨_, rfl, still _ _ ownSetAttentionMask_traffic⟩
  | softReset => exact ⟨_, rfl, owner _ _ ownSoftReset_keepsTraffic⟩
  | frameBegin => exact ⟨_, rfl, .of_eq s.frameBegin_traffic⟩
  | linkByteComplete b => exact ⟨_, rfl, .of_eq (s.linkByte_traffic b)⟩

/-- A law that both ISSUE and whatever keeps the traffic keep is kept by every step: a step is a command on the state with
the queue's rest, or idles. -/
theorem step_keeps_of_traffic {P : State → Prop} (kept : ∀ s t : State, s.KeepsTraffic t → P s → P t)
    (issues : ∀ s : State, P s → P s.issueNext) {s t : State} (h : P s) (e : step s = .next t) : P t := by
  unfold step at e
  split at e
  · obtain rfl := Host.Outcome.next.inj e
    exact h
  · rename_i i rest _
    have start : P { s with pending := rest } := kept s _ (.of_eq rfl) h
    by_cases hi : i = .issue
    · subst hi
      obtain rfl := Host.Outcome.next.inj e
      exact issues _ start
    · obtain ⟨u, hu, keeps⟩ := exec_keepsTraffic hi { s with pending := rest }
      obtain rfl := Host.Outcome.next.inj (hu.symm.trans e)
      exact kept _ _ keeps start

/-- Settles O53: a request takes off by ISSUE alone, and only without a hazard in flight. -/
theorem everyStepKeepsTrackerLaw : Obligations.EveryStepKeepsTrackerLaw := fun _ _ =>
  step_keeps_of_traffic (P := State.TrackerLaw) (fun _ _ k => k.trackerLaw) fun _ => State.TrackerLaw.issueNext

/-- Settles O54: every operation keeps the capacities, and ISSUE takes an entry out of the Issue Queue. -/
theorem everyStepKeepsQueueLaw : Obligations.EveryStepKeepsQueueLaw := fun _ _ =>
  step_keeps_of_traffic (P := State.QueueLaw) (fun _ _ k => k.queues) fun _ => State.QueueLaw.issueNext

end Sys2Proof.Machine
end

section
/-! Frames of the Management Link and the bytes that end no command (O39), the response (O40), and what a command that
acts leaves of the state (O41). -/

namespace Sys2Proof.Machine

open Sys2Proof

/-! ### What a byte that ends no command does, phase by phase (R153, R156) -/

theorem State.frameBegin_opens {s : State} (hm : s.mselLow = false) (hr : s.rstLow = false)
    (hp : s.link.phase = .idle) :
    s.frameBegin = { s with mselLow := true, link := { Frame.idle with phase := .address } } := by
  simp [State.frameBegin, hm, hr, hp]

theorem State.frameBegin_inReset {s : State} (hm : s.mselLow = false) (hr : s.rstLow = true) :
    s.frameBegin = { s with mselLow := true } := by
  simp [State.frameBegin, hm, hr]

theorem State.linkByte_address {s : State} (h : s.link.phase = .address) (b : Byte) : s.linkByte b = { s with link :=
    { s.link with phase := if b = s.linkAddress then .command else .ignored, count := s.link.count + 1 } } := by
  simp only [State.linkByte, h]

theorem State.linkByte_ignored {s : State} (h : s.link.phase = .ignored) (b : Byte) :
    s.linkByte b = { s with link := { s.link with count := s.link.count + 1 } } := by
  simp only [State.linkByte, h]

theorem State.linkByte_response {s : State} (h : s.link.phase = .response) (b : Byte) : s.linkByte b
    = { s with link := { s.link with count := s.link.count + 1, response := s.link.response.tail } } := by
  simp only [State.linkByte, h]

/-- The code of a command with parameters opens phase PARAMETERS. -/
theorem State.linkByte_code {s : State} {k : Command} (h : s.link.phase = .command) (hk : k.paramLen ≠ some 0) :
    s.linkByte k.code
      = { s with link := { s.link with phase := .parameters, count := s.link.count + 1, code := some k.code } } := by
  simp only [State.linkByte, h, Command.ofCode_code, if_neg hk]

/-- A command of a fixed length is not WRITE_DESC (R157). -/
theorem Frame.awaits.writing {f : Frame} {k : Command} {ps : List Byte} (h : f.awaits k ps) {n : Nat}
    (hk : k.paramLen = some n) : f.writing = false := by
  obtain ⟨-, hcode, -⟩ := h
  have other : k.code ≠ Command.writeDesc.code := fun e => by
    have same : k = .writeDesc := Option.some.inj (by rw [← Command.ofCode_code, e, Command.ofCode_code])
    subst same
    cases hk
  simp [Frame.writing, hcode, other]

/-- A byte before the last parameter completes nothing. -/
theorem Frame.awaits.completing_early {f : Frame} {k : Command} {ps : List Byte} (h : f.awaits k ps) {n : Nat}
    (hk : k.paramLen = some n) (early : ps.length + 1 < n) (b : Byte) : f.completing b = none := by
  obtain ⟨hphase, hcode, hparams⟩ := h
  have more : n ≠ ps.length + 1 := by omega
  simp [Frame.completing, hphase, hcode, hparams, hk, more]

/-- A byte before the last parameter joins the parameters. -/
theorem State.linkByte_parameter {s : State} {k : Command} {ps : List Byte} (h : s.link.awaits k ps) {n : Nat}
    (hk : k.paramLen = some n) (early : ps.length + 1 < n) (b : Byte) :
    s.linkByte b = { s with link := { s.link with count := s.link.count + 1, params := ps ++ [b] } } := by
  have ⟨hphase, _, hparams⟩ := h
  simp [State.linkByte, hphase, h.writing hk, h.completing_early hk early, hparams]

/-- Bytes before the last parameter join the parameters in order. -/
theorem State.linkBytes_parameters {k : Command} {n : Nat} (hk : k.paramLen = some n) (ps : List Byte) {s : State}
    {qs : List Byte} (h : s.link.awaits k qs) (early : qs.length + ps.length < n) : ps.foldl State.linkByte s
      = { s with link := { s.link with count := s.link.count + ps.length, params := qs ++ ps } } := by
  induction ps generalizing s qs with
  | nil =>
    obtain ⟨-, -, rfl⟩ := h
    simp
  | cons b ps ih =>
    rw [List.length_cons] at early
    have received := State.linkByte_parameter h hk (by omega) b
    have awaits : (s.linkByte b).link.awaits k (qs ++ [b]) := by
      obtain ⟨hphase, hcode, -⟩ := h
      rw [received]
      exact ⟨hphase, hcode, rfl⟩
    rw [List.foldl_cons, ih awaits (by rw [List.length_append, List.length_singleton]; omega), received]
    simp [Nat.add_assoc, Nat.add_comm 1]

/-- Settles O39: the rule of each phase, and by induction on the parameters received those that are not the last. -/
theorem framePhasesFollowBytes : Obligations.FramePhasesFollowBytes := by
  intro s b f moved
  refine ⟨fun hm hr hp => congrArg _ (State.frameBegin_opens hm hr hp),
    fun hm hr => congrArg _ (State.frameBegin_inReset hm hr), rfl, fun hp hb => ?_, fun hp hb => ?_,
    fun hp => congrArg _ (State.linkByte_ignored hp b), ?_,
    fun hp hb => congrArg _ (if_pos ⟨hp, Command.ofCode_eq_none hb⟩)⟩
  · exact congrArg _ ((State.linkByte_address hp b).trans (by rw [if_pos hb]))
  · exact congrArg _ ((State.linkByte_address hp b).trans (by rw [if_neg hb]))
  · rintro k n hp rfl hk
    have opened := State.linkByte_code hp hk
    refine ⟨congrArg _ opened, fun hempty hlen ps hps => ?_⟩
    have awaits : (s.linkByte k.code).link.awaits k [] := by
      rw [opened]
      exact ⟨rfl, rfl, hempty⟩
    rw [State.linkBytes_parameters hlen ps awaits (by rw [List.length_nil]; omega), opened]
    rfl

/-! ### The response (R151, R155) -/

/-- Filler bytes shift the response out and change nothing else. -/
theorem State.linkBytes_response (filler : List Byte) {s : State} (h : s.link.phase = .response) :
    filler.foldl State.linkByte s = { s with link := { s.link with
      count := s.link.count + filler.length, response := s.link.response.drop filler.length } } := by
  induction filler generalizing s with
  | nil => rfl
  | cons b filler ih =>
    rw [List.foldl_cons, State.linkByte_response h, ih (by exact h)]
    simp [Nat.add_assoc, Nat.add_comm 1]

/-- Settles O40: what MDO carries in each phase, and the response after any number of filler bytes. -/
theorem responseIsShiftedOut : Obligations.ResponseIsShiftedOut := by
  intro s filler
  refine ⟨?_, ?_, fun b st reply => ⟨rfl, rfl⟩, fun h => ?_⟩
  · rintro (h | h) <;> simp only [Frame.mdo, h]
  · rintro (h | h | h) <;> simp only [Frame.mdo, h]
  · intro t
    have shifted : t = _ := State.linkBytes_response filler h
    rw [shifted]
    refine ⟨rfl, h, ?_, fun b => rfl⟩
    simp [Frame.mdo, h, List.headD_eq_head?_getD]

/-! ### Refusals (R155, R159) -/

/-- A reply that is not OK changes nothing and has no bytes. -/
def Reply.Whole (s : State) (r : Reply) : Prop := r.status ≠ .ok → r = s.refuse r.status

theorem Reply.Whole.of_ok {s : State} {r : Reply} (h : r.status = .ok) : r.Whole s := fun no => absurd h no

theorem State.refuse_whole (s : State) (e : Status) : (s.refuse e).Whole s := fun _ => rfl

/-- A command that has one more check acts or is refused whole. -/
theorem Reply.Whole.ite {s : State} {r q : Reply} (hr : r.Whole s) (hq : q.Whole s) (p : Prop) [Decidable p] :
    Reply.Whole s (if p then r else q) := by
  split
  · exact hr
  · exact hq

theorem ownReadDesc_whole (ps : List Byte) (s : State) : (ownReadDesc ps s).Whole s := by
  unfold ownReadDesc
  split
  · exact s.refuse_whole _
  · exact .of_ok rfl

theorem ownClearDesc_whole (ps : List Byte) (s : State) : (ownClearDesc ps s).Whole s := by
  unfold ownClearDesc
  split
  · exact s.refuse_whole _
  · exact .of_ok rfl

theorem ownReadAperture_whole (ps : List Byte) (s : State) : (ownReadAperture ps s).Whole s := by
  unfold ownReadAperture
  split
  · exact s.refuse_whole _
  · exact .of_ok rfl

theorem ownFlushLines_whole (ps : List Byte) (s : State) : (ownFlushLines ps s).Whole s := by
  unfold ownFlushLines
  split
  · exact s.refuse_whole _
  · exact .of_ok rfl

theorem ownReadContext_whole (ps : List Byte) (s : State) : (ownReadContext ps s).Whole s := by
  unfold ownReadContext
  split
  · exact s.refuse_whole _
  · exact .of_ok rfl

theorem ownClearPacing_whole (ps : List Byte) (s : State) : (ownClearPacing ps s).Whole s := by
  unfold ownClearPacing
  split
  · exact s.refuse_whole _
  · exact .of_ok rfl

theorem ownReadPacing_whole (ps : List Byte) (s : State) : (ownReadPacing ps s).Whole s := by
  unfold ownReadPacing
  split
  · exact s.refuse_whole _
  · exact .of_ok rfl

theorem ownEndWalk_whole (ps : List Byte) (s : State) : (ownEndWalk ps s).Whole s := by
  unfold ownEndWalk
  split
  · exact s.refuse_whole _
  · exact .ite (.of_ok rfl) (s.refuse_whole _) _

theorem ownAbortWalk_whole (ps : List Byte) (s : State) : (ownAbortWalk ps s).Whole s := by
  unfold ownAbortWalk
  split
  · exact s.refuse_whole _
  · exact .ite (.of_ok rfl) (s.refuse_whole _) _

theorem ownClearFault_whole (ps : List Byte) (s : State) : (ownClearFault ps s).Whole s := by
  unfold ownClearFault
  split
  · exact s.refuse_whole _
  · exact .ite (.of_ok rfl) (s.refuse_whole _) _

theorem ownSetTimers_whole (ps : List Byte) (s : State) : (ownSetTimers ps s).Whole s :=
  .ite (.of_ok rfl) (s.refuse_whole _) _

theorem ownSetAttentionMask_whole (ps : List Byte) (s : State) : (ownSetAttentionMask ps s).Whole s :=
  .ite (.of_ok rfl) (s.refuse_whole _) _

theorem ownQueueWalk_whole (ps : List Byte) (s : State) : (ownQueueWalk ps s).Whole s := by
  unfold ownQueueWalk
  split
  · exact .ite (.of_ok rfl) (.ite (.of_ok rfl) (s.refuse_whole _) _) _
  · exact s.refuse_whole _

theorem ownSetAperture_whole (ps : List Byte) (s : State) : (ownSetAperture ps s).Whole s := by
  unfold ownSetAperture
  split
  · split
    · exact s.refuse_whole _
    · exact .of_ok rfl
  · exact s.refuse_whole _

theorem ownSetPacing_whole (ps : List Byte) (s : State) : (ownSetPacing ps s).Whole s := by
  unfold ownSetPacing
  split
  · split
    · exact s.refuse_whole _
    · exact .of_ok rfl
  · exact s.refuse_whole _

theorem ownPopEvent_whole (ps : List Byte) (s : State) : (ownPopEvent ps s).Whole s := by
  unfold ownPopEvent
  split
  · exact s.refuse_whole _
  · exact .of_ok rfl

theorem ownPeekEvent_whole (ps : List Byte) (s : State) : (ownPeekEvent ps s).Whole s := by
  unfold ownPeekEvent
  split
  · exact s.refuse_whole _
  · exact .of_ok rfl

/-- A command without parameters is completed by its code alone (R154). -/
theorem Frame.completing_bare {f : Frame} {b : Byte} {k : Command} (h : f.completing b = some k)
    (hk : k.paramLen = some 0) : b = k.code := by
  unfold Frame.completing at h
  split at h
  · obtain ⟨named, -⟩ := Option.filter_eq_some_iff.mp h
    exact (Command.ofCode_eq_some named).symm
  · obtain ⟨-, len⟩ := Option.filter_eq_some_iff.mp h
    simp [hk] at len
  · cases h

/-- The row of a completed command acts through an owner whose refusals are whole. -/
theorem exec_completing {s : State} {k : Command} {b : Byte} (hk : k ≠ .writeDesc)
    (h : s.link.completing b = some k) : ∃ owner : List Byte → State → Reply,
      exec (k.instr b) s = .next (s.command k b owner) ∧ ∀ ps, (owner ps s).Whole s := by
  have bare (hb : k.paramLen = some 0) : b = k.code := Frame.completing_bare h hb
  cases k with
  | writeDesc => exact absurd rfl hk
  | identify => obtain rfl := bare rfl; exact ⟨ownIdentify, rfl, fun _ => .of_ok rfl⟩
  | readTimers => obtain rfl := bare rfl; exact ⟨ownReadTimers, rfl, fun _ => .of_ok rfl⟩
  | readEventStatus => obtain rfl := bare rfl; exact ⟨ownReadEventStatus, rfl, fun _ => .of_ok rfl⟩
  | softReset => obtain rfl := bare rfl; exact ⟨ownSoftReset, rfl, fun _ => .of_ok rfl⟩
  | popEvent => obtain rfl := bare rfl; exact ⟨ownPopEvent, rfl, fun ps => ownPopEvent_whole ps s⟩
  | peekEvent => obtain rfl := bare rfl; exact ⟨ownPeekEvent, rfl, fun ps => ownPeekEvent_whole ps s⟩
  | readDesc => exact ⟨ownReadDesc, rfl, fun ps => ownReadDesc_whole ps s⟩
  | clearDesc => exact ⟨ownClearDesc, rfl, fun ps => ownClearDesc_whole ps s⟩
  | setAperture => exact ⟨ownSetAperture, rfl, fun ps => ownSetAperture_whole ps s⟩
  | readAperture => exact ⟨ownReadAperture, rfl, fun ps => ownReadAperture_whole ps s⟩
  | queueWalk => exact ⟨ownQueueWalk, rfl, fun ps => ownQueueWalk_whole ps s⟩
  | endWalk => exact ⟨ownEndWalk, rfl, fun ps => ownEndWalk_whole ps s⟩
  | abortWalk => exact ⟨ownAbortWalk, rfl, fun ps => ownAbortWalk_whole ps s⟩
  | clearFault => exact ⟨ownClearFault, rfl, fun ps => ownClearFault_whole ps s⟩
  | flushLines => exact ⟨ownFlushLines, rfl, fun ps => ownFlushLines_whole ps s⟩
  | readContext => exact ⟨ownReadContext, rfl, fun ps => ownReadContext_whole ps s⟩
  | setPacing => exact ⟨ownSetPacing, rfl, fun ps => ownSetPacing_whole ps s⟩
  | clearPacing => exact ⟨ownClearPacing, rfl, fun ps => ownClearPacing_whole ps s⟩
  | readPacing => exact ⟨ownReadPacing, rfl, fun ps => ownReadPacing_whole ps s⟩
  | setTimers => exact ⟨ownSetTimers, rfl, fun ps => ownSetTimers_whole ps s⟩
  | setAttentionMask => exact ⟨ownSetAttentionMask, rfl, fun ps => ownSetAttentionMask_whole ps s⟩

theorem State.command_completing {s : State} {k : Command} {b : Byte} (h : s.link.completing b = some k)
    (owner : List Byte → State → Reply) : s.command k b owner = { (owner (s.link.parameters b) s).state with
      link := s.link.answered b (owner (s.link.parameters b) s).status (owner (s.link.parameters b) s).bytes } :=
  if_pos h

/-- Settles O41: the reply of the completed command's owner, which is whole when it is a refusal. -/
theorem refusalChangesNothing : Obligations.RefusalChangesNothing := by
  intro s k b hk h
  obtain ⟨owner, acts, whole⟩ := exec_completing hk h
  refine ⟨_, _, _, acts.trans (congrArg _ (State.command_completing h owner)), rfl, fun no => ?_⟩
  rw [whole _ no]
  exact ⟨rfl, rfl⟩

end Sys2Proof.Machine
end

section
/-! The Event Queue: dropped records, POP_EVENT and PEEK_EVENT (O49); the attention mask and ATTN# (O50). -/

namespace Sys2Proof.Machine

open Sys2Proof

/-! ### Posting to a full queue (R169) -/

/-- The loss count goes up by one below its limit and stays at its limit. -/
theorem State.post_counts_loss {s : State} (e : EventRecord) (h : 32 ≤ s.events.length) :
    ∃ n, s.post e = { s with loss := n } ∧ (s.loss < 65535 → n = s.loss + 1) ∧ (s.loss = 65535 → n = 65535) :=
  ⟨_, s.post_full (Nat.not_lt.mpr h) e, by omega, by omega⟩

/-! ### Commands without parameters by what their owners give back (R155) -/

section Bare

variable {s : State} {k : Command} {owner : List Byte → State → Reply}
  (h : s.link.phase = .command) (hk : k.paramLen = some 0)
include h hk

theorem State.command_code_refused {e : Status} (ho : owner [] s = s.refuse e) :
    s.command k k.code owner = { s with link := s.link.answered k.code e [] } := by
  rw [State.command_code h hk, ho]; rfl

theorem State.command_code_done {u : State} {st : Status} {bytes : List Byte}
    (ho : owner [] s = { state := u, status := st, bytes := bytes }) :
    s.command k k.code owner = { u with link := s.link.answered k.code st bytes } := by
  rw [State.command_code h hk, ho]

end Bare

/-! ### What POP_EVENT and PEEK_EVENT answer (R170, R171) -/

section Front

variable {s : State} {ps : List Byte} {e : EventRecord} {rest : List EventRecord}

theorem ownPopEvent_empty (h : s.events = []) : ownPopEvent ps s = s.refuse .empty := by
  simp only [ownPopEvent, h]

theorem ownPeekEvent_empty (h : s.events = []) : ownPeekEvent ps s = s.refuse .empty := by
  simp only [ownPeekEvent, h]

theorem ownPopEvent_front (h : s.events = e :: rest) :
    ownPopEvent ps s = { state := s.removeOldest rest, status := .ok, bytes := e.report } := by
  simp only [ownPopEvent, h]

theorem ownPeekEvent_front (h : s.events = e :: rest) :
    ownPeekEvent ps s = { state := s, status := .ok, bytes := e.report } := by
  simp only [ownPeekEvent, h]

theorem State.removeOldest_no_loss (h : s.loss = 0) : s.removeOldest rest = { s with events := rest } := if_pos h

/-- With a loss count, EVENTS_LOST takes the freed slot. -/
theorem State.removeOldest_loss (h : s.loss ≠ 0) :
    s.removeOldest rest = { s with
      events := rest ++ [{ kind := .eventsLost, timestamp := s.timebase, value := some s.loss }], loss := 0 } :=
  if_neg h

end Front

/-- Settles O49: a post by the room in the queue, and a reply by the front of the queue and the loss count. -/
theorem lostEventsAreCountedAndReported : Obligations.LostEventsAreCountedAndReported := by
  refine ⟨fun s e => ⟨fun room => s.post_room room e, State.post_counts_loss e⟩,
    fun s hp => ⟨fun empty => ⟨?_, ?_⟩, ?_⟩⟩
  · exact congrArg _ (State.command_code_refused hp rfl (ownPopEvent_empty empty))
  · exact congrArg _ (State.command_code_refused hp rfl (ownPeekEvent_empty empty))
  · intro e rest front
    have popped : exec .popEvent s = .next { s.removeOldest rest with link := s.link.answered 0x40 .ok e.report } :=
      congrArg _ (State.command_code_done (k := .popEvent) hp rfl (ownPopEvent_front front))
    refine ⟨congrArg _ (State.command_code_done hp rfl (ownPeekEvent_front front)), fun kept => ?_, fun lost => ?_⟩
    · rw [popped, State.removeOldest_no_loss kept]
    · rw [popped, State.removeOldest_loss lost]

/-! ### The attention mask (R173, R174) -/

/-- The mask bit of a kind is the code of the kind less one (Table 46). -/
theorem EventKind.code_pred (k : EventKind) : k.code.toNat - 1 = k.maskBit := by cases k <;> rfl

/-- ATTN# is low exactly when a record's kind has its bit in the mask. -/
theorem State.attnLow_iff {s : State} :
    s.attnLow = true ↔ ∃ e ∈ s.events, s.mask.toNat.testBit (e.kind.code.toNat - 1) = true := by
  simp only [State.attnLow, List.any_eq_true, State.enabled, EventKind.code_pred, BitVec.testBit_toNat]

/-- The two parameter bytes of SET_ATTENTION_MASK, the low byte first. -/
theorem argLE_pair (lo hi : Byte) : argLE ([lo] ++ [hi]) 0 2 = lo.toNat + 256 * hi.toNat := rfl

theorem ownSetAttentionMask_badValue {s : State} {ps : List Byte} (h : 2 ^ 14 ≤ argLE ps 0 2) :
    ownSetAttentionMask ps s = s.refuse .badValue := if_neg (Nat.not_lt.mpr h)

theorem ownSetAttentionMask_done {s : State} {ps : List Byte} (h : argLE ps 0 2 < 2 ^ 14) :
    ownSetAttentionMask ps s = { state := { s with mask := BitVec.ofNat 14 (argLE ps 0 2) }, status := .ok } :=
  if_pos h

/-- Settles O50: an accepted value fits the mask, and ATTN# is a view of the mask and the queue. -/
theorem attentionMaskDecidesAttn : Obligations.AttentionMaskDecidesAttn := by
  intro s lo hi awaited v
  have value : argLE ([lo] ++ [hi]) 0 2 = v := argLE_pair lo hi
  refine ⟨fun unassigned => ?_, fun assigned => ?_⟩
  · rw [← value] at unassigned
    exact congrArg _ (State.command_refused awaited rfl (ownSetAttentionMask_badValue unassigned))
  · have fits : (BitVec.ofNat 14 v).toNat = v := by rw [BitVec.toNat_ofNat, Nat.mod_eq_of_lt assigned]
    have done := State.command_done awaited rfl (ownSetAttentionMask_done (s := s) (value.symm ▸ assigned))
    rw [value] at done
    refine ⟨_, congrArg Host.Outcome.next done, rfl, fits, State.attnLow_iff.trans ?_⟩
    rw [fits]

end Sys2Proof.Machine
end

section
/-! One step by the front of the queue of commands (O1, log entry 2). -/

namespace Sys2Proof.Machine

open Sys2Proof

variable {s : State}

/-- With a command at the front of the queue, a step executes it on the state with the queue's rest. -/
theorem step_of_pending_cons {c : Instr} {rest : List Instr} (front : s.pending = c :: rest) :
    step s = exec c { s with pending := rest } := by
  simp only [step, front]

/-- On an empty queue the block idles. -/
theorem step_of_pending_nil (empty : s.pending = []) : step s = .next s := by
  simp only [step, empty]

/-- Settles O1: the two forms of the queue, each by its own lemma. -/
theorem stepTakesFrontCommand : Obligations.StepTakesFrontCommand := fun c rest s =>
  ⟨step_of_pending_cons (s := { s with pending := c :: rest }) rfl,
    step_of_pending_nil (s := { s with pending := [] }) rfl⟩

end Sys2Proof.Machine
end

section
/-! Which pieces of the state an operation may alter, and which walks it may replace: the common ground of the frame of
every command (O51), of pacing (O52) and of the aperture law (O56). -/

namespace Sys2Proof.Machine

open Sys2Proof

/-! ### Pieces of the state -/

/-- The tables, queues, settings and registers of the state, each with a rule of its own for what may write it; the loss
count belongs to the Event Queue. -/
inductive Piece where
  | pending
  | descs
  | apertures
  | settings
  | mask
  | strap
  | timebase
  | mselLow
  | channel
  | pointer
  | links
  | slots
  | events
  | iq
  | tracker
  | responses
  | fifo
  | ctx
  | link
  | rstLow
  | usLength
  | choices

/-- The piece is in `t` what it is in `s`. -/
def State.Same (s t : State) : Piece → Prop
  | .pending => t.pending = s.pending
  | .descs => t.descs = s.descs
  | .apertures => t.apertures = s.apertures
  | .settings => t.settings = s.settings
  | .mask => t.mask = s.mask
  | .strap => t.strap = s.strap
  | .timebase => t.timebase = s.timebase
  | .mselLow => t.mselLow = s.mselLow
  | .channel => t.channel = s.channel
  | .pointer => t.pointer = s.pointer
  | .links => t.links = s.links
  | .slots => t.slots = s.slots
  | .events => t.events = s.events ∧ t.loss = s.loss
  | .iq => t.iq = s.iq
  | .tracker => t.tracker = s.tracker
  | .responses => t.responses = s.responses
  | .fifo => t.fifo = s.fifo
  | .ctx => t.ctx = s.ctx
  | .link => t.link = s.link
  | .rstLow => t.rstLow = s.rstLow
  | .usLength => t.usLength = s.usLength
  | .choices => t.choices = s.choices

/-- From `s` to `t` no piece outside the list changed. -/
def State.Alters (ps : List Piece) (s t : State) : Prop := ∀ p, p ∈ ps ∨ s.Same t p

theorem State.Same.refl (s : State) (p : Piece) : s.Same s p := by cases p <;> simp [State.Same]

theorem State.Same.trans {s t u : State} {p : Piece} (h : s.Same t p) (k : t.Same u p) : s.Same u p := by
  cases p with
  | events => exact ⟨k.1.trans h.1, k.2.trans h.2⟩
  | _ => exact Eq.trans k h

theorem State.Alters.refl (ps : List Piece) (s : State) : State.Alters ps s s := fun p => .inr (.refl s p)

section Alters

variable {ps qs : List Piece} {s t u : State}

theorem State.Alters.trans (h : State.Alters ps s t) (k : State.Alters ps t u) : State.Alters ps s u := fun p =>
  (h p).elim .inl fun a => (k p).imp id fun b => a.trans b

theorem State.Alters.mono (h : State.Alters qs s t) (hsub : qs ⊆ ps) : State.Alters ps s t := fun p =>
  (h p).imp (fun m => hsub m) id

theorem State.Alters.ite (h : State.Alters ps s t) (p : Prop) [Decidable p] :
    State.Alters ps s (if p then t else s) := by
  split
  · exact h
  · exact .refl ps s

/-- A piece outside the list stands. -/
theorem State.Alters.same (h : State.Alters ps s t) {p : Piece} (hp : p ∉ ps) : s.Same t p := (h p).resolve_left hp

end Alters

/-- The pieces that answers and head checks alter. -/
def servedPieces : List Piece := [.ctx, .slots, .responses, .events]

/-- The pieces that the start and the end of a walk alter. -/
def walkPieces : List Piece := [.ctx, .slots, .responses, .events, .links, .iq, .tracker]

theorem State.Serves.alters {s t : State} (h : s.Serves t) : State.Alters (.links :: servedPieces) s t := by
  intro p
  rw [h.rest]
  cases p <;> simp [State.Same, servedPieces]

theorem State.ServesQueue.alters {c : Ctx} {s t : State} (h : State.ServesQueue c s t) :
    State.Alters servedPieces s t := fun p =>
  (h.serves.alters p).elim (fun m => (List.mem_cons.mp m).elim (fun e => .inr (e ▸ h.links)) .inl) .inr

theorem State.Resettled.alters {s t : State} (h : s.Resettled t) : State.Alters [.ctx] s t := by
  intro p
  rw [h.rest]
  cases p <;> simp [State.Same]

theorem State.post_alters (s : State) (e : EventRecord) : State.Alters [.events] s (s.post e) := by
  intro p
  rw [s.post_rest e]
  cases p <;> simp [State.Same]

theorem State.setContext_alters (s : State) (c : Ctx) (x : Context) : State.Alters [.ctx] s (s.setContext c x) := by
  intro p
  cases p <;> simp [State.Same]

theorem State.mapContexts_alters (s : State) (f : Ctx → Context → Context) :
    State.Alters [.ctx] s (s.mapContexts f) := by
  intro p
  cases p <;> simp [State.Same]

theorem State.setPacing_alters (s : State) (f : Ctx) (l : Option PacingLink) :
    State.Alters [.links] s (s.setPacing f l) := by
  intro p
  cases p <;> simp [State.Same]

theorem State.setSlot_alters (s : State) (u : HostTag) (x : Option HostSlot) :
    State.Alters [.slots] s (s.setSlot u x) := by
  intro p
  cases p <;> simp [State.Same]

theorem State.setTrack_alters (s : State) (m : MemTag) (x : Option TrackEntry) :
    State.Alters [.tracker] s (s.setTrack m x) := by
  intro p
  cases p <;> simp [State.Same]

theorem State.setDesc_alters (s : State) (i : DescIx) (d : Descriptor) : State.Alters [.descs] s (s.setDesc i d) := by
  intro p
  cases p <;> simp [State.Same]

theorem State.setAperture_alters (s : State) (i : ApIx) (a : Aperture) :
    State.Alters [.apertures] s (s.setAperture i a) := by
  intro p
  cases p <;> simp [State.Same]

theorem State.detach_alters (s : State) (f : Origin → Bool) (all : Bool) :
    State.Alters [.iq, .tracker] s (s.detach f all) := by
  intro p
  cases p <;> simp [State.Same, State.detach]

theorem State.enqueue_alters (s : State) (n : Fin 17) (e : IqEntry) :
    State.Alters [.iq, .pointer] s (s.enqueue n e) := by
  intro p
  cases p <;> simp [State.Same, State.enqueue]

theorem State.link_alters (s : State) (f : Frame) : State.Alters [.link] s { s with link := f } := by
  intro p
  cases p <;> simp [State.Same]

/-! ### Walks that go on, stop or are launched -/

/-- The context runs a walk with this target region (R16, R20). -/
def Context.Covers (x : Context) (q : Region) : Prop := (x.state = .active ∨ x.state = .draining) ∧ x.region = some q

/-- From `s` to `t` no piece outside `ps` changed, nor an aperture; no element was taken; only a context of `cs` started
a walk anew, with its progress 0, and only clear of every aperture. -/
structure State.Moves (ps : List Piece) (cs : Set Ctx) (s t : State) : Prop where
  alters : State.Alters ps s t
  apertures : t.apertures = s.apertures
  progress : ∀ c, (t.context c).progress = (s.context c).progress ∨ c ∈ cs ∧ (t.context c).progress = 0
  regions : ∀ c q, (t.context c).Covers q → (s.context c).Covers q ∨ s.meetsAperture q = false

theorem State.aperture_congr {s t : State} (h : t.apertures = s.apertures) : t.aperture = s.aperture :=
  funext fun i => by simp only [State.aperture, h]

theorem State.meetsAperture_congr {s t : State} (h : t.apertures = s.apertures) (q : Region) :
    t.meetsAperture q = s.meetsAperture q := by
  simp only [State.meetsAperture, State.apertureList, State.aperture_congr h]

section Moves

variable {ps qs : List Piece} {cs : Set Ctx} {s t u : State}

theorem State.Moves.refl (s : State) : State.Moves ps cs s s :=
  ⟨.refl ps s, rfl, fun _ => .inl rfl, fun _ _ h => .inl h⟩

theorem State.Moves.trans (h : State.Moves ps cs s t) (k : State.Moves ps cs t u) : State.Moves ps cs s u where
  alters := h.alters.trans k.alters
  apertures := k.apertures.trans h.apertures
  progress := fun c => (k.progress c).elim (fun e => by rw [e]; exact h.progress c) .inr
  regions := fun c q hq => (k.regions c q hq).elim (h.regions c q)
    fun e => .inr ((State.meetsAperture_congr h.apertures q).symm.trans e)

theorem State.Moves.mono (h : State.Moves qs cs s t) (hsub : qs ⊆ ps) : State.Moves ps cs s t :=
  ⟨h.alters.mono hsub, h.apertures, h.progress, h.regions⟩

theorem State.Moves.ite (h : State.Moves ps cs s t) (p : Prop) [Decidable p] :
    State.Moves ps cs s (if p then t else s) := by
  split
  · exact h
  · exact .refl s

/-- No progress grows. -/
theorem State.Moves.progress_le (h : State.Moves ps cs s t) (c : Ctx) :
    (t.context c).progress ≤ (s.context c).progress := by
  rcases h.progress c with e | ⟨-, e⟩ <;> omega

/-- What alters neither contexts nor apertures moves no walk. -/
theorem State.Alters.moves (h : State.Alters qs s t) (hsub : qs ⊆ ps) (hctx : t.ctx = s.ctx)
    (hap : t.apertures = s.apertures) : State.Moves ps cs s t := by
  have same (c : Ctx) : t.context c = s.context c := by simp only [State.context, hctx]
  exact ⟨h.mono hsub, hap, fun c => .inl (by rw [same]), fun c q hq => .inl (same c ▸ hq)⟩

theorem State.Resettled.moves (h : s.Resettled t) (hsub : [.ctx] ⊆ ps) : State.Moves ps cs s t :=
  ⟨h.alters.mono hsub, h.apertures, fun c => .inl (h.progress c),
    fun c q hq => .inl (by simpa only [Context.Covers, h.state, h.region] using hq)⟩

theorem State.Moves.settle (h : State.Moves ps cs s t) (hsub : [.ctx] ⊆ ps) : State.Moves ps cs s t.settle :=
  h.trans (t.settle_resettled.moves hsub)

theorem State.Serves.moves_of_alters (h : s.Serves t) (ha : State.Alters qs s t) (hsub : qs ⊆ ps) :
    State.Moves ps cs s t :=
  ⟨ha.mono hsub, by rw [h.rest], fun c => .inl (h.progress c),
    fun c q hq => .inl (by simpa only [Context.Covers, h.state, h.region] using hq)⟩

theorem State.ServesQueue.moves {c : Ctx} (h : State.ServesQueue c s t) (hsub : servedPieces ⊆ ps) :
    State.Moves ps cs s t := h.serves.moves_of_alters h.alters hsub

/-- Writing the record of a context that runs no other walk than before. -/
theorem State.setContext_moves {c : Ctx} {x : Context} (hsub : [.ctx] ⊆ ps)
    (hp : x.progress = (s.context c).progress) (hr : ∀ q, x.Covers q → (s.context c).Covers q) :
    State.Moves ps cs s (s.setContext c x) := by
  refine ⟨(s.setContext_alters c x).mono hsub, rfl, fun g => .inl ?_, fun g q hq => .inl ?_⟩
  · rw [State.context_setContext]; split
    · rename_i e; rw [← e, hp]
    · rfl
  · rw [State.context_setContext] at hq; split at hq
    · rename_i e; exact e ▸ hr q hq
    · exact hq

/-- Rewriting contexts quietly, each at the progress that it had. -/
theorem State.Quiet.moves (h : s.Quiet t) (ha : State.Alters qs s t) (hsub : qs ⊆ ps) (hap : t.apertures = s.apertures)
    (hp : ∀ c, (t.context c).progress = (s.context c).progress) : State.Moves ps cs s t :=
  ⟨ha.mono hsub, hap, fun c => .inl (hp c),
    fun c q hq => .inl (by simpa only [Context.Covers, (h c).state, (h c).region] using hq)⟩

/-- A context that is IDLE or FAULTED covers nothing. -/
theorem Context.not_covers {x : Context} (h : x.state = .idle ∨ x.state = .faulted) (q : Region) : ¬ x.Covers q := by
  rcases h with h | h <;> simp [Context.Covers, h]

end Moves

/-! ### The launch checks (R17 to R20) -/

/-- A descriptor passes when none of the checks of Table 7 fails. -/
theorem State.launchCheck_eq_none {s : State} {d : Descriptor} : s.launchCheck d = none ↔ d.mandatoryWritten = true
    ∧ (d.dims.all fun k => d.start.get k < d.count.get k) = true ∧ d.positions ≤ 2 ^ 32 - 1 ∧ d.lanesFit = true
    ∧ d.regionFits = true ∧ s.meetsAperture d.region = false := by
  unfold State.launchCheck
  split_ifs <;> simp_all

/-! ### Walks that launch, fault, end or are aborted (R23, R24, R28, R30, R32, R34) -/

section Walks

variable {ps : List Piece} {cs : Set Ctx} (hw : walkPieces ⊆ ps)
include hw

theorem State.Serves.moves {s t : State} (h : s.Serves t) : State.Moves ps cs s t :=
  h.moves_of_alters h.alters (List.Subset.trans (by simp [walkPieces, servedPieces]) hw)

theorem ctx_of_walkPieces : [Piece.ctx] ⊆ ps := List.Subset.trans (by simp [walkPieces]) hw

variable (s : State)

/-- A context that leaves its walk for IDLE or FAULTED. -/
theorem State.stopContext_moves {c : Ctx} {x : Context} (hp : x.progress = (s.context c).progress)
    (h : x.state = .idle ∨ x.state = .faulted) : State.Moves ps cs s (s.setContext c x) :=
  State.setContext_moves (ctx_of_walkPieces hw) hp fun q hq => absurd hq (Context.not_covers h q)

theorem State.faultContext_moves (c : Ctx) (why : FaultReason) : State.Moves ps cs s (s.faultContext c why) :=
  ((s.answerAll_serves c .contextFaulted).moves hw).trans
    ((State.stopContext_moves hw _ (by rfl) (.inr (by rfl))).trans ((State.breakLinks_serves _ c _).moves hw))

theorem State.rearm_moves (c : Ctx) : State.Moves ps cs s (s.rearm c) := by
  rw [s.rearm_eq]
  exact (s.setPacing_alters c _).moves (List.Subset.trans (by simp [walkPieces]) hw) rfl rfl

/-- A launched walk starts at progress 0, and its target region meets no aperture (R20, R23). -/
theorem State.launched_moves {c : Ctx} (hc : c ∈ cs) {i : DescIx} (h : s.launchCheck (s.desc i) = none) :
    State.Moves ps cs s (s.setContext c ((s.context c).launched i (s.desc i))) := by
  obtain ⟨-, -, -, -, -, clear⟩ := State.launchCheck_eq_none.mp h
  refine ⟨(s.setContext_alters c _).mono (ctx_of_walkPieces hw), rfl, fun g => ?_, fun g q hq => ?_⟩
  · rw [State.context_setContext]; split
    · rename_i e; exact .inr ⟨e ▸ hc, rfl⟩
    · exact .inl rfl
  · rw [State.context_setContext] at hq; split at hq
    · obtain ⟨-, hreg⟩ := hq
      obtain rfl := Option.some.inj hreg
      exact .inr clear
    · exact .inl hq

theorem State.launch_moves {c : Ctx} (hc : c ∈ cs) (i : DescIx) : State.Moves ps cs s (s.launch c i) := by
  cases h : s.launchCheck (s.desc i) with
  | none =>
    rw [State.launch_accepted h]
    exact ((s.launched_moves hw hc h).trans (State.rearm_moves hw _ c)).trans ((State.promote_serves _ c).moves hw)
  | some why =>
    rw [State.launch_refused h]
    exact ((s.post_serves _).moves hw).trans (State.faultContext_moves hw _ c _)

theorem State.launchNext_moves {c : Ctx} (hc : c ∈ cs) : State.Moves ps cs s (s.launchNext c) := by
  cases h : (s.context c).launchQ with
  | nil => rw [State.launchNext_nil h]; exact .refl s
  | cons i q =>
    rw [State.launchNext_cons h]
    have shortened : State.Moves ps cs s (s.setContext c { s.context c with launchQ := q }) :=
      State.setContext_moves (ctx_of_walkPieces hw) (by rfl) fun _ hq => hq
    exact shortened.trans (State.launch_moves hw _ hc i)

theorem State.completeDrain_moves {c : Ctx} (hc : c ∈ cs) : State.Moves ps cs s (s.completeDrain c) := by
  unfold State.completeDrain
  dsimp only
  have reported : State.Moves ps cs s (if ((s.context c).snapshot.map Descriptor.doneEvent).getD false = true
      then s.post (s.walkDoneRecord c) else s) := ((s.post_serves _).moves hw).ite _
  generalize (if ((s.context c).snapshot.map Descriptor.doneEvent).getD false = true then s.post (s.walkDoneRecord c)
    else s) = r at reported
  refine reported.trans ?_
  split
  · exact r.launch_moves hw hc _
  · split
    · exact (State.stopContext_moves hw r (by rfl) (.inl (by rfl))).trans ((State.answerAll_serves _ c _).moves hw)
    · exact r.launchNext_moves hw hc

theorem State.drainIfDone_moves {c : Ctx} (hc : c ∈ cs) : State.Moves ps cs s (s.drainIfDone c) :=
  (s.completeDrain_moves hw hc).ite _

theorem State.detach_moves (f : Origin → Bool) (all : Bool) : State.Moves ps cs s (s.detach f all) :=
  (s.detach_alters f all).moves (List.Subset.trans (by simp [walkPieces]) hw) rfl rfl

theorem State.discardReadAhead_moves (c : Ctx) : State.Moves ps cs s (s.discardReadAhead c) :=
  State.Moves.trans (t := s.setContext c { s.context c with entries := [] })
    (State.setContext_moves (ctx_of_walkPieces hw) (by rfl) fun _ hq => hq) (State.detach_moves hw _ _ true)

/-- An ACTIVE walk that ends covers its target region until it has drained (R28). -/
theorem State.endWalk_moves {c : Ctx} (hc : c ∈ cs) (ha : (s.context c).state = .active) (why : EndCause) :
    State.Moves ps cs s (s.endWalk c why) := by
  have ended : State.Moves ps cs s (s.setContext c ((s.context c).ended why)) :=
    State.setContext_moves (ctx_of_walkPieces hw) (by rfl) fun _ hq => ⟨.inl ha, hq.2⟩
  exact (ended.trans ((State.discardReadAhead_moves hw _ c).ite _)).trans (State.drainIfDone_moves hw _ hc)

theorem State.afterTake_moves {c : Ctx} (hc : c ∈ cs) (ha : (s.context c).state = .active) :
    State.Moves ps cs s (s.afterTake c) := by
  have answered : s.Serves (if s.demand c = 0 then s.finishHead c (s.headReason c) else s) := by
    split
    · exact s.finishHead_serves c _
    · exact .refl s
  unfold State.afterTake
  dsimp only
  generalize (if s.demand c = 0 then s.finishHead c (s.headReason c) else s) = r at answered
  have cut (why : HostReason) (e : EndCause) : State.Moves ps cs r ((r.cutHead c why).endWalk c e) :=
    ((r.cutHead_serves c why).moves hw).trans (State.endWalk_moves hw _ hc
      (by rw [(r.cutHead_serves c why).state, answered.state, ha]) e)
  refine (answered.moves hw).trans ?_
  split
  · exact cut _ _
  · split
    · exact cut _ _
    · exact (r.promote_serves c).moves hw

end Walks

/-! ### Lines and memory (R65, R66, R90, R93, R127, R141, R145) -/

section Memory

variable {ps : List Piece} {cs : Set Ctx} (hw : walkPieces ⊆ ps) (s : State)
include hw

theorem State.setEntry_moves (c : Ctx) (q : Nat) (st : EntryState) : State.Moves ps cs s (s.setEntry c q st) :=
  State.setContext_moves (ctx_of_walkPieces hw) (by rfl) fun _ hq => hq

theorem State.readFailed_moves (c : Ctx) (n : BitVec 16) (q : Nat) (r : Reason) :
    State.Moves ps cs s (s.readFailed c n q r) := by
  unfold State.readFailed
  split
  · exact .refl s
  · exact (s.setEntry_moves hw c q _).trans ((State.post_serves _ _).moves hw)

theorem State.readOkay_moves (c : Ctx) (q : Nat) (data : List Byte) : State.Moves ps cs s (s.readOkay c q data) := by
  unfold State.readOkay
  split
  · exact .refl s
  · split <;> exact s.setEntry_moves hw c q _

theorem State.setSlot_moves (u : HostTag) (x : Option HostSlot) : State.Moves ps cs s (s.setSlot u x) :=
  (s.setSlot_alters u x).moves (List.Subset.trans (by simp [walkPieces]) hw) rfl rfl

theorem State.setTrack_moves (m : MemTag) (x : Option TrackEntry) : State.Moves ps cs s (s.setTrack m x) :=
  (s.setTrack_alters m x).moves (List.Subset.trans (by simp [walkPieces]) hw) rfl rfl

theorem State.hostOkay_moves (u : HostTag) (data : List Byte) : State.Moves ps cs s (s.hostOkay u data) := by
  unfold State.hostOkay
  split
  · exact .refl s
  · dsimp only
    split
    · exact .refl s
    · exact (s.setSlot_moves hw u _).trans ((State.answer_serves _ u none).moves hw)

variable (hf : Piece.fifo ∈ ps)
include hf

theorem State.discardLines_moves (c : Ctx) : State.Moves ps cs s (s.discardLines c) := by
  have altered : State.Alters [.ctx, .fifo] s (s.discardLines c) := fun p => by
    cases p <;> simp [State.Same, State.discardLines]
  have edited : State.Moves ps cs s (s.setContext c { s.context c with lines := [], issuing := [] }) :=
    State.setContext_moves (ctx_of_walkPieces hw) (by rfl) fun _ hq => hq
  exact ⟨altered.mono (List.cons_subset.mpr ⟨ctx_of_walkPieces hw (by simp), by simpa using hf⟩), rfl, edited.progress,
    edited.regions⟩

theorem State.lineFailed_moves (c : Ctx) (n : BitVec 16) (l : Nat) (b : Bool) (why : FaultReason) (r : Reason) :
    State.Moves ps cs s (s.lineFailed c n l b why r) :=
  ((s.post_serves _).moves hw).trans (State.Moves.ite (((State.discardLines_moves hw _ hf c).trans
    (State.detach_moves hw _ _ _)).trans (State.faultContext_moves hw _ c why)) _)

theorem State.abort_moves (c : Ctx) (breaks purge : Bool) : State.Moves ps cs s (s.abort c breaks purge) := by
  rw [s.abort_eq]
  have cleared : State.Moves ps cs s (s.cleared c) :=
    (((s.discardLines_moves hw hf c).trans (State.detach_moves hw _ _ _)).trans
      (State.discardReadAhead_moves hw _ c)).trans ((State.answerAll_serves _ c _).moves hw)
  exact (cleared.trans (((State.breakLinks_serves _ c _).moves hw).ite _)).trans
    (State.stopContext_moves hw _ (by rfl) (.inl (by rfl)))

theorem State.softly_moves : State.Moves ps cs s s.softly := by
  have aborted : State.Moves ps cs s s.abortAll := List.foldlRecOn (motive := fun r : State => State.Moves ps cs s r)
    allCtx _ (.refl s) fun r k c _ => k.trans (r.abort_moves hw hf c false true)
  have armed (r : State) : State.Moves ps cs r r.armAll :=
    State.Alters.moves (qs := [.links]) (fun p => by cases p <;> simp [State.Same, State.armAll])
      (List.Subset.trans (by simp [walkPieces]) hw) rfl rfl
  exact (aborted.trans (armed _)).trans ((State.post_serves _ _).moves hw)

theorem State.tellTimeout_moves (e : TrackEntry) : State.Moves ps cs s (s.tellTimeout e) := by
  unfold State.tellTimeout
  split
  · exact (s.answer_serves _ _).moves hw
  · split
    · exact .refl s
    · exact s.readFailed_moves hw _ _ _ _
  · exact s.lineFailed_moves hw hf _ _ _ _ _ _

end Memory

section Timeouts

variable {ps : List Piece} (hw : walkPieces ⊆ ps) (hf : Piece.fifo ∈ ps) (s : State)
include hw hf

theorem State.deliver_moves (e : TrackEntry) (st : MemStatus) (data : List Byte) :
    State.Moves ps Set.univ s (s.deliver e st data) := by
  unfold State.deliver
  split
  · exact s.hostOkay_moves hw _ _
  · exact (s.answer_serves _ _).moves hw
  · split
    · exact .refl s
    · exact s.readOkay_moves hw _ _ _
  · split
    · exact .refl s
    · exact s.readFailed_moves hw _ _ _ _
  · split
    · exact .refl s
    · exact s.drainIfDone_moves hw (Set.mem_univ _)
  · exact s.lineFailed_moves hw hf _ _ _ _ _ _

theorem State.response_moves (m : MemTag) (st : MemStatus) (data : List Byte) :
    State.Moves ps Set.univ s (s.response m st data) := by
  unfold State.response
  split
  · exact .refl s
  · split
    · exact (s.post_serves _).moves hw
    · refine (s.setTrack_moves hw m none).trans ?_
      dsimp only
      split
      · exact (State.post_serves _ _).moves hw
      · exact (State.deliver_moves hw hf _ _ st data).settle (ctx_of_walkPieces hw)

variable (hn : Piece.choices ∈ ps)
include hn

theorem State.quarantine_moves (m : MemTag) (e : TrackEntry) : State.Moves ps Set.univ s (s.quarantine m e) := by
  have reported : State.Moves ps Set.univ s (s.reportTimeout m e) :=
    (s.setTrack_moves hw m _).trans ((State.post_serves _ _).moves hw)
  have counted : State.Alters [.choices] (s.reportTimeout m e) (s.choosePlace m e) := fun p => by
    cases p <;> simp [State.Same, State.choosePlace]
  have chosen := reported.trans (counted.moves (by simpa using hn) rfl rfl)
  have blocked (r : State) : State.Moves ps Set.univ r (r.post (s.record .trackerBlocked)) :=
    (r.post_serves _).moves hw
  by_cases hb : (s.reportTimeout m e).quarantined = 32
  · rcases State.quarantine_blocked hb with h | h <;> rw [h]
    · exact (chosen.trans (blocked _)).trans (State.tellTimeout_moves hw _ hf e)
    · exact (chosen.trans (State.tellTimeout_moves hw _ hf e)).trans (blocked _)
  · rw [State.quarantine_unblocked hb]
    exact reported.trans (State.tellTimeout_moves hw _ hf e)

theorem State.timeoutRequest_moves (m : MemTag) : State.Moves ps Set.univ s (s.timeoutRequest m) := by
  unfold State.timeoutRequest
  split
  · exact (s.quarantine_moves hw hf hn m _).ite _
  · exact .refl s

theorem State.expire_moves (i : Timer) : State.Moves ps Set.univ s (s.expire i) := by
  have afresh (r : State) : State.Moves ps Set.univ r r.decideAfresh :=
    r.decideAfresh_resettled.moves (ctx_of_walkPieces hw)
  cases i with
  | head c => exact (((s.finishEarly_serves c _).moves hw).trans (afresh _)).ite _
  | request m => exact ((s.timeoutRequest_moves hw hf hn m).trans (afresh _)).ite _

theorem State.retime_moves (hset : Piece.settings ∈ ps) (new : Settings) :
    State.Moves ps Set.univ s (s.retime new) := by
  have set : State.Alters [.settings, .choices] s (s.withSettings new) := fun p => by
    cases p <;> simp [State.Same, State.withSettings]
  have turns : State.Moves ps Set.univ (s.compared new) (s.afterTurns new) :=
    List.foldlRecOn (motive := fun r : State => State.Moves ps Set.univ (s.compared new) r) _ _ (.refl _)
      fun r k i _ => k.trans (r.expire_moves hw hf hn i)
  have compared := (s.compared_resettled new).moves (cs := Set.univ) (ctx_of_walkPieces hw)
  have ordered := (s.afterTurns_resettled new).moves (cs := Set.univ) (ctx_of_walkPieces hw)
  exact (((set.moves (by simpa using ⟨hset, hn⟩) rfl rfl).trans compared).trans turns).trans ordered

end Timeouts

end Sys2Proof.Machine
end

section
/-! What every command may touch (O51): the frame of each command as a list of pieces. -/

namespace Sys2Proof

open Sys2Proof.Machine

/-! ### The pieces that a command may touch -/

/-- The pieces that the rules of a command let it write. -/
def Instr.touches : Instr → List Piece
  | .hardwareReset => [.descs, .apertures, .settings, .mask, .strap, .timebase, .channel, .pointer, .links, .slots,
      .events, .iq, .tracker, .responses, .fifo, .ctx, .link, .rstLow, .usLength]
  | .rstRise _ => [.strap, .rstLow]
  | .timebaseTick => [.timebase, .usLength]
  | .hostRequestArrival _ => .fifo :: servedPieces
  | .hostResponseSent => [.slots, .responses]
  | .elementTake _ | .drainComplete _ => walkPieces
  | .passthroughAdmission | .gatherLineAdmission _ => [.ctx, .iq, .pointer, .fifo]
  | .readAheadAdmission _ => [.ctx, .iq, .pointer]
  | .issue => [.iq, .tracker, .channel]
  | .memoryRequestTaken => [.channel]
  | .memoryResponse _ _ _ => .fifo :: walkPieces
  | .memoryTimeout _ => .choices :: .fifo :: walkPieces
  | .gatherAgeExpiry _ _ => [.ctx]
  | .paceTimeout _ => servedPieces
  | .frameBegin | .frameEnd => [.mselLow, .link]
  | .writeDesc _ | .clearDesc _ | .linkByteComplete _ => [.descs, .link]
  | .setAperture _ => [.apertures, .link]
  | .queueWalk _ | .endWalk _ | .clearFault _ => .link :: walkPieces
  | .abortWalk _ | .softReset => .link :: .fifo :: walkPieces
  | .flushLines _ => [.ctx, .link]
  | .setPacing _ => .links :: .link :: servedPieces
  | .clearPacing _ => [.ctx, .links, .link]
  | .setTimers _ => .link :: .settings :: .choices :: .fifo :: walkPieces
  | .popEvent => [.events, .link]
  | .setAttentionMask _ => [.mask, .link]
  | .unknownCommand _ | .identify | .readDesc _ | .readAperture _ | .readContext _ | .readPacing _ | .readTimers
  | .peekEvent | .readEventStatus => [.link]

/-- The commands that touch the frame record (R153 to R156). -/
theorem Instr.command_of_touches_link {i : Instr} (h : Piece.link ∈ i.touches) : i = .hardwareReset ∨ i = .frameBegin
    ∨ i = .frameEnd ∨ (∃ b, i = .linkByteComplete b ∨ i = .unknownCommand b) ∨ ∃ k b, i = Command.instr k b := by
  cases i with
  | hardwareReset | frameBegin | frameEnd => simp
  | linkByteComplete b | unknownCommand b => simp
  | identify => exact .inr (.inr (.inr (.inr ⟨.identify, 0, rfl⟩)))
  | softReset => exact .inr (.inr (.inr (.inr ⟨.softReset, 0, rfl⟩)))
  | setTimers b => exact .inr (.inr (.inr (.inr ⟨.setTimers, b, rfl⟩)))
  | readTimers => exact .inr (.inr (.inr (.inr ⟨.readTimers, 0, rfl⟩)))
  | writeDesc b => exact .inr (.inr (.inr (.inr ⟨.writeDesc, b, rfl⟩)))
  | readDesc b => exact .inr (.inr (.inr (.inr ⟨.readDesc, b, rfl⟩)))
  | clearDesc b => exact .inr (.inr (.inr (.inr ⟨.clearDesc, b, rfl⟩)))
  | setAperture b => exact .inr (.inr (.inr (.inr ⟨.setAperture, b, rfl⟩)))
  | readAperture b => exact .inr (.inr (.inr (.inr ⟨.readAperture, b, rfl⟩)))
  | queueWalk b => exact .inr (.inr (.inr (.inr ⟨.queueWalk, b, rfl⟩)))
  | endWalk b => exact .inr (.inr (.inr (.inr ⟨.endWalk, b, rfl⟩)))
  | abortWalk b => exact .inr (.inr (.inr (.inr ⟨.abortWalk, b, rfl⟩)))
  | clearFault b => exact .inr (.inr (.inr (.inr ⟨.clearFault, b, rfl⟩)))
  | flushLines b => exact .inr (.inr (.inr (.inr ⟨.flushLines, b, rfl⟩)))
  | readContext b => exact .inr (.inr (.inr (.inr ⟨.readContext, b, rfl⟩)))
  | setPacing b => exact .inr (.inr (.inr (.inr ⟨.setPacing, b, rfl⟩)))
  | clearPacing b => exact .inr (.inr (.inr (.inr ⟨.clearPacing, b, rfl⟩)))
  | readPacing b => exact .inr (.inr (.inr (.inr ⟨.readPacing, b, rfl⟩)))
  | popEvent => exact .inr (.inr (.inr (.inr ⟨.popEvent, 0, rfl⟩)))
  | peekEvent => exact .inr (.inr (.inr (.inr ⟨.peekEvent, 0, rfl⟩)))
  | readEventStatus => exact .inr (.inr (.inr (.inr ⟨.readEventStatus, 0, rfl⟩)))
  | setAttentionMask b => exact .inr (.inr (.inr (.inr ⟨.setAttentionMask, b, rfl⟩)))
  | _ => simp [Instr.touches, walkPieces, servedPieces] at h

end Sys2Proof

namespace Sys2Proof.Machine

open Sys2Proof

/-! ### Events of the ports and of the walks -/

section Events

variable {ps : List Piece} {cs : Set Ctx} (s : State)

theorem State.answer_moves (hsub : servedPieces ⊆ ps) (u : HostTag) (why : Option HostReason) :
    State.Moves ps cs s (s.answer u why) := by
  refine (s.answer_serves u why).moves_of_alters (qs := servedPieces) (fun p => ?_) hsub
  rw [s.answer_rest u]
  cases p <;> simp [State.Same, servedPieces]

theorem State.walkAccess_moves (hsub : servedPieces ⊆ ps) (u : HostTag) (c : Ctx) :
    State.Moves ps cs s (s.walkAccess u c) := by
  have queued (q : List HostTag) : State.Moves ps cs s (s.setContext c { s.context c with service := q }) :=
    State.setContext_moves (List.Subset.trans (by simp [servedPieces]) hsub) rfl fun _ hq => hq
  unfold State.walkAccess
  dsimp only
  split
  · exact s.answer_moves hsub _ _
  · exact s.answer_moves hsub _ _
  · exact (queued _).trans ((State.promote_servesQueue _ c).moves hsub)
  · exact queued _

theorem State.passArrival_moves (r : HostRequest) : State.Moves (.fifo :: servedPieces) cs s (s.passArrival r) := by
  have joined : State.Alters [.fifo] s
      { s with fifo := s.fifo ++ [{ tag := r.tag, waitSet := s.waitSetFor r.span }] } := fun p => by
    cases p <;> simp [State.Same]
  exact (joined.moves (by simp) rfl rfl).trans ((s.passArrival_resettled r).moves (by simp [servedPieces]))

theorem State.arrival_moves (r : HostRequest) : State.Moves (.fifo :: servedPieces) cs s (s.arrival r) := by
  have served : servedPieces ⊆ Piece.fifo :: servedPieces := List.subset_cons_self _ _
  have slot (x : HostSlot) : State.Moves (.fifo :: servedPieces) cs s (s.setSlot r.tag (some x)) :=
    (s.setSlot_alters r.tag _).moves (by simp [servedPieces]) rfl rfl
  have accepted : State.Moves (.fifo :: servedPieces) cs s (s.accept r) := by
    unfold State.accept
    split
    · exact (slot _).trans (State.answer_moves _ served _ _)
    · split
      · exact (slot _).trans (State.answer_moves _ served _ _)
      · exact (slot _).trans (State.walkAccess_moves _ served _ _)
      · exact (slot _).trans (State.passArrival_moves _ r)
  unfold State.arrival
  split
  · exact .refl s
  · split
    · exact (s.post_serves _).moves_of_alters (s.post_alters _) (by simp [servedPieces])
    · exact accepted.settle (by simp [servedPieces])

theorem State.responseSent_alters : State.Alters [.slots, .responses] s s.responseSent := by
  unfold State.responseSent
  split
  · exact .refl _ s
  · intro p
    cases p <;> simp [State.Same]

theorem State.passthroughAdmission_moves :
    State.Moves [.ctx, .iq, .pointer, .fifo] cs s s.passthroughAdmission := by
  have queued (u : HostTag) (x : HostSlot) : State.Moves [.ctx, .iq, .pointer, .fifo] cs s
      { s.enqueue 0 (x.req.iqEntry u) with fifo := s.fifo.tail } :=
    State.Alters.moves (fun p => by cases p <;> simp [State.Same, State.enqueue]) (List.Subset.refl _) rfl rfl
  have marked (r : State) (hit : Span → Bool) : State.Moves [.ctx, .iq, .pointer, .fifo] cs r (r.markStale hit) :=
    (r.markStale_quiet hit).moves (r.mapContexts_alters _) (by simp) rfl fun c => by simp [State.markStale]
  unfold State.passthroughAdmission
  split
  · split
    · refine State.Moves.settle ?_ (by simp)
      unfold State.admitPassthrough
      dsimp only
      split
      · exact queued _ _
      · exact (queued _ _).trans (marked _ _)
    · exact .refl s
  · exact .refl s

theorem State.readAheadAdmission_moves (c : Ctx) :
    State.Moves [.ctx, .iq, .pointer] cs s (s.readAheadAdmission c) := by
  have queued (n : Fin 17) (e : IqEntry) : State.Moves [.ctx, .iq, .pointer] cs s (s.enqueue n e) :=
    (s.enqueue_alters n e).moves (by simp) rfl rfl
  have entered (r : State) (q : Nat) (st : EntryState) :
      State.Moves [.ctx, .iq, .pointer] cs r (r.setEntry c q st) :=
    State.setContext_moves (by simp) rfl fun _ hq => hq
  unfold State.readAheadAdmission
  split
  · split
    · exact ((queued _ _).trans (entered _ _ _)).settle (by simp)
    · exact .refl s
  · exact .refl s

theorem State.dropLine_moves (c : Ctx) (k : Fin 4) :
    State.Moves [.ctx, .iq, .pointer, .fifo] cs s (s.dropLine c k) :=
  (s.dropLine_quiet c k).moves (qs := [.ctx, .fifo]) (fun p => by cases p <;> simp [State.Same, State.dropLine])
    (by simp) rfl fun g => by
      show ((s.setContext c _).context g).progress = _
      rw [State.context_setContext]
      split
      · rename_i e; rw [← e]
      · rfl

theorem State.gatherLineAdmission_moves (c : Ctx) :
    State.Moves [.ctx, .iq, .pointer, .fifo] cs s (s.gatherLineAdmission c) := by
  have queued (n : Fin 17) (e : IqEntry) : State.Moves [.ctx, .iq, .pointer, .fifo] cs s (s.enqueue n e) :=
    (s.enqueue_alters n e).moves (by simp) rfl rfl
  unfold State.gatherLineAdmission
  split
  · split
    · exact ((queued _ _).trans (State.dropLine_moves _ c _)).settle (by simp)
    · exact .refl s
  · exact .refl s

theorem State.issueNext_alters : State.Alters [.iq, .tracker, .channel] s s.issueNext := by
  unfold State.issueNext
  split
  · intro p
    cases p <;> simp [State.Same]
  · exact .refl _ s

/-- Steps 3 and 4 of a taking touch contexts, the head's slot and the Event Queue. -/
theorem State.afterMove_alters (c : Ctx) (k : Taking) : State.Alters walkPieces s (s.afterMove c k) := by
  have moved : State.Alters [.ctx, .slots] s (s.moveElement c k) := by
    intro p
    rw [s.moveElement_rest c k]
    cases p <;> simp [State.Same]
  have advanced (r : State) : State.Alters walkPieces r (r.advanceTake c k) := by
    unfold State.advanceTake
    dsimp only
    split
    · exact ((r.setContext_alters c _).mono (by simp [walkPieces])).trans
        ((State.post_alters _ _).mono (by simp [walkPieces]))
    · exact (r.setContext_alters c _).mono (by simp [walkPieces])
  exact (moved.mono (by simp [walkPieces])).trans (advanced _)

/-- ELEMENT_TAKE settles the waits, or takes the element that waits: the head and the walk go on from there (R38). -/
theorem State.elementTake_cases (c : Ctx) : s.elementTake c = s.settle ∨ ∃ k, s.nextElement c = some k
    ∧ s.mayTake c k = true ∧ State.Moves walkPieces {c} (s.afterMove c k) (s.elementTake c) := by
  cases hk : s.nextElement c with
  | none => exact .inl (by simp only [State.elementTake, hk])
  | some k =>
    by_cases hm : s.mayTake c k = true
    · have active : ((s.afterMove c k).context c).state = .active := by
        rw [s.afterMove_state, State.nextElement_active hk]
      have whole := List.Subset.refl walkPieces
      rw [State.elementTake_taken hk hm]
      exact .inr ⟨k, rfl, hm, (State.afterTake_moves whole _ (Set.mem_singleton c) active).settle
        (ctx_of_walkPieces whole)⟩
    · exact .inl (by simp only [State.elementTake, hk, if_neg hm])

theorem State.elementTake_alters (c : Ctx) : State.Alters walkPieces s (s.elementTake c) := by
  rcases s.elementTake_cases c with settled | ⟨k, -, -, moves⟩
  · rw [settled]
    exact s.settle_resettled.alters.mono (by simp [walkPieces])
  · exact (s.afterMove_alters c k).trans moves.alters

theorem State.frameBegin_alters : State.Alters [.mselLow, .link] s s.frameBegin := by
  unfold State.frameBegin
  split
  · exact .refl _ s
  · split <;> intro p <;> cases p <;> simp [State.Same]

end Events

/-! ### The Management Link -/

section Link

variable {ps : List Piece} (s : State)

theorem State.putDesc_alters (put : Option (DescIx × Descriptor)) : State.Alters [.descs] s (s.putDesc put) := by
  unfold State.putDesc
  split
  · exact .refl _ s
  · exact s.setDesc_alters _ _

/-- An applied pair and the frame record. -/
theorem State.putDesc_link_alters (put : Option (DescIx × Descriptor)) (f : Frame) :
    State.Alters [.descs, .link] s { s.putDesc put with link := f } :=
  ((s.putDesc_alters put).mono (by simp)).trans ((State.link_alters _ f).mono (by simp))

theorem State.writeDescEnd_alters (b : Byte) : State.Alters [.descs, .link] s (s.writeDescEnd b) := by
  unfold State.writeDescEnd
  split
  · split
    · exact .refl _ s
    · exact s.putDesc_link_alters _ _
  · exact .refl _ s

theorem State.linkByte_alters (b : Byte) : State.Alters [.descs, .link] s (s.linkByte b) := by
  have framed (f : Frame) : State.Alters [.descs, .link] s { s with link := f } := (s.link_alters f).mono (by simp)
  unfold State.linkByte
  dsimp only
  split
  · exact .refl _ s
  · exact framed _
  · exact framed _
  · exact framed _
  · split
    · exact .refl _ s
    · split
      · exact .refl _ s
      · exact framed _
  · split
    · split
      · exact .refl _ s
      · exact s.putDesc_link_alters _ _
    · split
      · exact .refl _ s
      · exact framed _

variable {s}

/-- What the owner of a command touches, and the frame record. -/
theorem State.Alters.command {owner : List Byte → State → Reply} (ho : ∀ args, State.Alters ps s (owner args s).state)
    (hl : Piece.link ∈ ps) (k : Command) (b : Byte) : State.Alters ps s (s.command k b owner) := by
  unfold State.command
  split
  · exact (ho _).trans ((State.link_alters _ _).mono (by simpa using hl))
  · exact .refl ps s

theorem State.Moves.command {cs : Set Ctx} {owner : List Byte → State → Reply}
    (ho : ∀ args, State.Moves ps cs s (owner args s).state) (hl : Piece.link ∈ ps) (k : Command) (b : Byte) :
    State.Moves ps cs s (s.command k b owner) := by
  unfold State.command
  split
  · exact (ho _).trans ((State.link_alters _ _).moves (by simpa using hl) rfl rfl)
  · exact .refl s

end Link

/-! ### The owners of the commands -/

section Owners

variable (args : List Byte) (s : State)

theorem ownQueueWalk_moves : State.Moves (.link :: walkPieces) Set.univ s (ownQueueWalk args s).state := by
  have hw : walkPieces ⊆ Piece.link :: walkPieces := List.subset_cons_self _ _
  unfold ownQueueWalk
  split
  · dsimp only
    split
    · exact (s.launch_moves hw (Set.mem_univ _) _).settle (ctx_of_walkPieces hw)
    · split
      · exact State.setContext_moves (ctx_of_walkPieces hw) rfl fun _ hq => hq
      · exact .refl s
  · exact .refl s

theorem ownEndWalk_moves : State.Moves (.link :: walkPieces) Set.univ s (ownEndWalk args s).state := by
  have hw : walkPieces ⊆ Piece.link :: walkPieces := List.subset_cons_self _ _
  unfold ownEndWalk
  split
  · exact .refl s
  · rename_i c _
    split
    · rename_i active
      have k := s.headEnded_serves c
      exact ((k.moves hw).trans (State.endWalk_moves hw _ (Set.mem_univ c) ((k.state c).trans active) _)).settle
        (ctx_of_walkPieces hw)
    · exact .refl s

theorem ownClearFault_moves : State.Moves (.link :: walkPieces) Set.univ s (ownClearFault args s).state := by
  have hw : walkPieces ⊆ Piece.link :: walkPieces := List.subset_cons_self _ _
  unfold ownClearFault
  split
  · exact .refl s
  · rename_i c _
    split
    · have idled : State.Moves (.link :: walkPieces) Set.univ s (s.setContext c { s.context c with state := .idle }) :=
        State.stopContext_moves hw s rfl (.inl rfl)
      exact (idled.trans (State.launchNext_moves hw _ (Set.mem_univ c))).settle (ctx_of_walkPieces hw)
    · exact .refl s

theorem walkPieces_subset_discards : walkPieces ⊆ Piece.link :: .fifo :: walkPieces := by simp [walkPieces]

theorem ownAbortWalk_moves : State.Moves (.link :: .fifo :: walkPieces) Set.univ s (ownAbortWalk args s).state := by
  unfold ownAbortWalk
  split
  · exact .refl s
  · rename_i c _
    split
    · exact ((s.abort_moves walkPieces_subset_discards (by simp) c true _).trans
        (State.launchNext_moves walkPieces_subset_discards _ (Set.mem_univ c))).settle
          (ctx_of_walkPieces walkPieces_subset_discards)
    · exact .refl s

theorem ownSoftReset_moves : State.Moves (.link :: .fifo :: walkPieces) Set.univ s (ownSoftReset args s).state :=
  (s.softly_moves walkPieces_subset_discards (by simp)).settle (ctx_of_walkPieces walkPieces_subset_discards)

theorem ownSetTimers_moves :
    State.Moves (.link :: .settings :: .choices :: .fifo :: walkPieces) Set.univ s (ownSetTimers args s).state := by
  unfold ownSetTimers
  split
  · exact s.retime_moves (by simp [walkPieces]) (by simp) (by simp) (by simp) _
  · exact .refl s

theorem ownFlushLines_moves : State.Moves [.ctx, .link] Set.univ s (ownFlushLines args s).state := by
  unfold ownFlushLines
  split
  · exact .refl s
  · rename_i c _
    have flushed : State.Moves [.ctx, .link] Set.univ s (s.setContext c (s.context c).issueAll) :=
      State.setContext_moves (by simp) rfl fun _ hq => hq
    exact flushed.settle (by simp)

theorem ownSetPacing_moves :
    State.Moves (.links :: .link :: servedPieces) Set.univ s (ownSetPacing args s).state := by
  have written (f : Ctx) (l : Option PacingLink) :
      State.Moves (.links :: .link :: servedPieces) Set.univ s (s.setPacing f l) :=
    (s.setPacing_alters f l).moves (by simp) rfl rfl
  unfold ownSetPacing
  split
  · split
    · exact .refl s
    · exact ((written _ _).trans ((State.promote_servesQueue _ _).moves (by simp [servedPieces]))).settle
        (by simp [servedPieces])
  · exact .refl s

theorem ownClearPacing_moves : State.Moves [.ctx, .links, .link] Set.univ s (ownClearPacing args s).state := by
  have written (f : Ctx) (l : Option PacingLink) :
      State.Moves [.ctx, .links, .link] Set.univ s (s.setPacing f l) :=
    (s.setPacing_alters f l).moves (by simp) rfl rfl
  unfold ownClearPacing
  split
  · exact .refl s
  · exact (written _ _).settle (by simp)

theorem ownPopEvent_alters : State.Alters [.events, .link] s (ownPopEvent args s).state := by
  unfold ownPopEvent
  split
  · exact .refl _ s
  · unfold State.removeOldest
    split <;> intro p <;> cases p <;> simp [State.Same]

theorem ownSetAttentionMask_alters : State.Alters [.mask, .link] s (ownSetAttentionMask args s).state := by
  unfold ownSetAttentionMask
  split
  · intro p
    cases p <;> simp [State.Same]
  · exact .refl _ s

theorem ownClearDesc_alters : State.Alters [.descs, .link] s (ownClearDesc args s).state := by
  unfold ownClearDesc
  split
  · exact .refl _ s
  · exact (s.setDesc_alters _ _).mono (by simp)

theorem ownSetAperture_alters : State.Alters [.apertures, .link] s (ownSetAperture args s).state := by
  unfold ownSetAperture
  split
  · split
    · exact .refl _ s
    · exact (s.setAperture_alters _ _).mono (by simp)
  · exact .refl _ s

/-! ### Owners that report -/

theorem ownReadDesc_state : (ownReadDesc args s).state = s := by
  unfold ownReadDesc
  split <;> rfl

theorem ownReadAperture_state : (ownReadAperture args s).state = s := by
  unfold ownReadAperture
  split <;> rfl

theorem ownReadContext_state : (ownReadContext args s).state = s := by
  unfold ownReadContext
  split <;> rfl

theorem ownReadPacing_state : (ownReadPacing args s).state = s := by
  unfold ownReadPacing
  split <;> rfl

theorem ownPeekEvent_state : (ownPeekEvent args s).state = s := by
  unfold ownPeekEvent
  split <;> rfl

end Owners

/-! ### Every command -/

/-- What alters neither the contexts nor the apertures moves no walk. -/
theorem State.Alters.still {ps : List Piece} {cs : Set Ctx} {s t : State} (h : State.Alters ps s t)
    (hctx : Piece.ctx ∉ ps) (hap : Piece.apertures ∉ ps) : State.Moves ps cs s t :=
  h.moves (List.Subset.refl ps) (h.same hctx) (h.same hap)

/-- Every command but HARDWARE_RESET, SET_APERTURE and ELEMENT_TAKE takes no element, launches walks clear of the
apertures only, and writes only what its rules let it write. -/
theorem exec_moves {i : Instr} (hreset : i ≠ .hardwareReset) (hap : ∀ b, i ≠ .setAperture b)
    (htake : ∀ c, i ≠ .elementTake c) (s : State) : ∃ t, exec i s = .next t ∧ State.Moves i.touches Set.univ s t := by
  have reads (k : Command) (b : Byte) {own : List Byte → State → Reply} (ho : ∀ args s, (own args s).state = s) :
      State.Moves [.link] Set.univ s (s.command k b own) :=
    State.Moves.command (fun args => by rw [ho]; exact .refl s) (by simp) k b
  have wide : walkPieces ⊆ Piece.fifo :: walkPieces := List.subset_cons_self _ _
  cases i with
  | hardwareReset => exact absurd rfl hreset
  | setAperture b => exact absurd rfl (hap b)
  | elementTake c => exact absurd rfl (htake c)
  | rstRise v =>
    exact ⟨_, rfl, State.Alters.still (fun p => by cases p <;> simp [State.Same, Instr.touches])
      (by simp [Instr.touches]) (by simp [Instr.touches])⟩
  | timebaseTick =>
    refine ⟨_, rfl, ?_⟩
    split
    · exact .refl s
    · exact State.Alters.still (fun p => by cases p <;> simp [State.Same, Instr.touches])
        (by simp [Instr.touches]) (by simp [Instr.touches])
  | hostRequestArrival r => exact ⟨_, rfl, s.arrival_moves r⟩
  | hostResponseSent => exact ⟨_, rfl, s.responseSent_alters.still (by simp) (by simp)⟩
  | drainComplete c =>
    have hw := List.Subset.refl walkPieces
    exact ⟨_, rfl, ((s.completeDrain_moves hw (Set.mem_univ c)).settle (ctx_of_walkPieces hw)).ite _⟩
  | passthroughAdmission => exact ⟨_, rfl, s.passthroughAdmission_moves⟩
  | readAheadAdmission c => exact ⟨_, rfl, s.readAheadAdmission_moves c⟩
  | gatherLineAdmission c => exact ⟨_, rfl, s.gatherLineAdmission_moves c⟩
  | issue => exact ⟨_, rfl, s.issueNext_alters.still (by simp) (by simp)⟩
  | memoryRequestTaken =>
    exact ⟨_, rfl, State.Alters.still (fun p => by cases p <;> simp [State.Same, Instr.touches])
      (by simp [Instr.touches]) (by simp [Instr.touches])⟩
  | memoryResponse m st data => exact ⟨_, rfl, s.response_moves wide (by simp) m st data⟩
  | memoryTimeout m =>
    have hw : walkPieces ⊆ Piece.choices :: .fifo :: walkPieces := by simp [walkPieces]
    exact ⟨_, rfl, ((s.timeoutRequest_moves hw (by simp) (by simp) m).settle (ctx_of_walkPieces hw)).ite _⟩
  | gatherAgeExpiry c line =>
    have issued (p : GatherLine → Bool) : State.Moves [.ctx] Set.univ s (s.issueLines c p) :=
      State.setContext_moves (by simp) rfl fun _ hq => hq
    exact ⟨_, rfl, ((issued _).settle (by simp)).ite _⟩
  | paceTimeout c =>
    have finished : State.Moves servedPieces Set.univ s (s.finishEarly c .paceTimeout) :=
      (s.finishEarly_servesQueue c _).moves (List.Subset.refl _)
    exact ⟨_, rfl, (finished.settle (by simp [servedPieces])).ite _⟩
  | frameBegin => exact ⟨_, rfl, s.frameBegin_alters.still (by simp) (by simp)⟩
  | frameEnd =>
    exact ⟨_, rfl, State.Alters.still (fun p => by cases p <;> simp [State.Same, Instr.touches])
      (by simp [Instr.touches]) (by simp [Instr.touches])⟩
  | unknownCommand b =>
    refine ⟨_, rfl, ?_⟩
    split
    · exact (s.link_alters _).still (by simp) (by simp)
    · exact .refl s
  | linkByteComplete b => exact ⟨_, rfl, (s.linkByte_alters b).still (by simp) (by simp)⟩
  | writeDesc b => exact ⟨_, rfl, (s.writeDescEnd_alters b).still (by simp) (by simp)⟩
  | clearDesc b =>
    exact ⟨_, rfl, (State.Alters.command (fun args => ownClearDesc_alters args s) (by simp) _ b).still (by simp)
      (by simp)⟩
  | queueWalk b => exact ⟨_, rfl, .command (fun args => ownQueueWalk_moves args s) (by simp) _ b⟩
  | endWalk b => exact ⟨_, rfl, .command (fun args => ownEndWalk_moves args s) (by simp) _ b⟩
  | abortWalk b => exact ⟨_, rfl, .command (fun args => ownAbortWalk_moves args s) (by simp) _ b⟩
  | clearFault b => exact ⟨_, rfl, .command (fun args => ownClearFault_moves args s) (by simp) _ b⟩
  | flushLines b => exact ⟨_, rfl, .command (fun args => ownFlushLines_moves args s) (by simp) _ b⟩
  | setPacing b => exact ⟨_, rfl, .command (fun args => ownSetPacing_moves args s) (by simp) _ b⟩
  | clearPacing b => exact ⟨_, rfl, .command (fun args => ownClearPacing_moves args s) (by simp) _ b⟩
  | setTimers b => exact ⟨_, rfl, .command (fun args => ownSetTimers_moves args s) (by simp) _ b⟩
  | softReset => exact ⟨_, rfl, .command (fun args => ownSoftReset_moves args s) (by simp) _ _⟩
  | popEvent =>
    exact ⟨_, rfl, (State.Alters.command (fun args => ownPopEvent_alters args s) (by simp) _ _).still (by simp)
      (by simp)⟩
  | setAttentionMask b =>
    exact ⟨_, rfl, (State.Alters.command (fun args => ownSetAttentionMask_alters args s) (by simp) _ b).still (by simp)
      (by simp)⟩
  | identify => exact ⟨_, rfl, reads _ _ (own := ownIdentify) fun _ _ => rfl⟩
  | readTimers => exact ⟨_, rfl, reads _ _ (own := ownReadTimers) fun _ _ => rfl⟩
  | readEventStatus => exact ⟨_, rfl, reads _ _ (own := ownReadEventStatus) fun _ _ => rfl⟩
  | peekEvent => exact ⟨_, rfl, reads _ _ ownPeekEvent_state⟩
  | readDesc b => exact ⟨_, rfl, reads _ _ ownReadDesc_state⟩
  | readAperture b => exact ⟨_, rfl, reads _ _ ownReadAperture_state⟩
  | readContext b => exact ⟨_, rfl, reads _ _ ownReadContext_state⟩
  | readPacing b => exact ⟨_, rfl, reads _ _ ownReadPacing_state⟩

/-- Every command writes only what its rules let it write. -/
theorem exec_alters (i : Instr) (s : State) : ∃ t, exec i s = .next t ∧ State.Alters i.touches s t := by
  by_cases hreset : i = .hardwareReset
  · subst hreset
    exact ⟨_, rfl, fun p => by cases p <;> simp [State.Same, Instr.touches, State.hardwareReset]⟩
  by_cases hap : ∃ b, i = .setAperture b
  · obtain ⟨b, rfl⟩ := hap
    exact ⟨_, rfl, .command (fun args => ownSetAperture_alters args s) (by simp) _ b⟩
  by_cases htake : ∃ c, i = .elementTake c
  · obtain ⟨c, rfl⟩ := htake
    exact ⟨_, rfl, s.elementTake_alters c⟩
  obtain ⟨t, ht, moves⟩ := exec_moves hreset (not_exists.mp hap) (not_exists.mp htake) s
  exact ⟨t, ht, moves.alters⟩

/-- Settles O51: each clause is the list of the commands that touch its piece. -/
theorem tablesChangeOnlyByTheirCommands : Obligations.TablesChangeOnlyByTheirCommands := by
  intro i s t h
  obtain ⟨u, hu, alters⟩ := exec_alters i s
  obtain rfl := Host.Outcome.next.inj (hu.symm.trans h)
  have stands (p : Piece) {q : Prop} (hq : p ∈ i.touches → q) : s.Same u p ∨ q := (alters p).symm.imp_right hq
  refine ⟨(stands .pending (q := False) ?_).resolve_right id, stands .descs ?_, stands .apertures ?_,
    stands .settings ?_, stands .mask ?_, stands .strap ?_, stands .timebase ?_, stands .mselLow ?_, stands .channel ?_,
    stands .pointer ?_, stands .links ?_, stands .slots ?_, stands .events ?_, stands .iq ?_, stands .tracker ?_,
    stands .responses ?_, stands .fifo ?_, stands .ctx ?_, stands .link Instr.command_of_touches_link,
    stands .rstLow ?_, stands .usLength ?_, stands .choices ?_⟩
  all_goals clear alters stands hu h; cases i <;> simp [Instr.touches, walkPieces, servedPieces, movesWalk]

end Sys2Proof.Machine
end

section
/-! Progress grows only in ELEMENT_TAKE, paced (O52), and every step keeps the aperture law (O56). -/

namespace Sys2Proof.Machine

open Sys2Proof

/-- A step idles, or executes the command at the front of the queue. -/
theorem exec_of_step {s t : State} (h : step s = .next t) :
    t = s ∨ ∃ i rest, exec i { s with pending := rest } = .next t := by
  unfold step at h
  split at h
  · exact .inl (Host.Outcome.next.inj h).symm
  · exact .inr ⟨_, _, h⟩

/-! ### Progress (R100, R101) -/

section Progress

variable {s t : State} {c : Ctx} {k : Taking}

theorem State.afterMove_context_of_ne {g : Ctx} (h : g ≠ c) : (s.afterMove c k).context g = { s.context g with
    entries := ((s.moveElement c k).context g).entries, lines := ((s.moveElement c k).context g).lines } := by
  rw [State.afterMove, State.advanceTake_context_of_ne h, ← State.moveElement_context]

/-- ELEMENT_TAKE raises no progress but its own context's. -/
theorem State.elementTake_progress_of_ne {g : Ctx} (h : g ≠ c) :
    ((s.elementTake c).context g).progress = (s.context g).progress := by
  rcases s.elementTake_cases c with settled | ⟨k, -, -, moves⟩
  · rw [settled, s.settle_resettled.progress]
  · rcases moves.progress g with e | ⟨e, -⟩
    · rw [e, State.afterMove_context_of_ne h]
    · exact absurd e h

/-- Where progress grows, the element that waits may be taken, and progress grows by 1. -/
theorem State.mayTake_of_progress_lt (h : (s.context c).progress < ((s.elementTake c).context c).progress) :
    ((s.elementTake c).context c).progress = (s.context c).progress + 1
      ∧ ∃ k, s.nextElement c = some k ∧ s.mayTake c k = true := by
  rcases s.elementTake_cases c with settled | ⟨k, hk, hm, moves⟩
  · rw [settled, s.settle_resettled.progress] at h
    exact absurd h (lt_irrefl _)
  · have le := moves.progress_le c
    rw [s.afterMove_progress] at le
    exact ⟨by omega, k, hk, hm⟩

theorem State.hardwareReset_progress (c : Ctx) : (s.hardwareReset.context c).progress = 0 := by
  rw [State.hardwareReset_context]
  simp [Context.reset]

theorem State.Alters.context_of (h : State.Alters [.apertures, .link] s t) : t.context c = s.context c := by
  simp only [State.context, show t.ctx = s.ctx from h.same (p := .ctx) (by simp)]

/-- Progress grows in ELEMENT_TAKE of the same context only. -/
theorem exec_elementTake_of_progress_lt {i : Instr} (h : exec i s = .next t)
    (grown : (s.context c).progress < (t.context c).progress) : i = .elementTake c := by
  by_cases hreset : i = .hardwareReset
  · subst hreset
    obtain rfl := Host.Outcome.next.inj h
    rw [State.hardwareReset_progress] at grown
    exact absurd grown (Nat.not_lt_zero _)
  by_cases hap : ∃ b, i = .setAperture b
  · obtain ⟨b, rfl⟩ := hap
    obtain ⟨u, hu, alters⟩ := exec_alters (.setAperture b) s
    obtain rfl := Host.Outcome.next.inj (hu.symm.trans h)
    rw [alters.context_of] at grown
    exact absurd grown (lt_irrefl _)
  by_cases htake : ∃ g, i = .elementTake g
  · obtain ⟨g, rfl⟩ := htake
    obtain rfl := Host.Outcome.next.inj h
    by_cases hg : c = g
    · rw [hg]
    · rw [State.elementTake_progress_of_ne hg] at grown
      exact absurd grown (lt_irrefl _)
  obtain ⟨u, hu, moves⟩ := exec_moves hreset (not_exists.mp hap) (not_exists.mp htake) s
  obtain rfl := Host.Outcome.next.inj (hu.symm.trans h)
  exact absurd grown (moves.progress_le c).not_gt

/-- A taken element stays behind its leader and within the limits of its followers (R100, R101, R103). -/
theorem State.elementTake_paced (grown : (s.context c).progress < ((s.elementTake c).context c).progress) :
    (s.context c).state = .active ∧ ((s.elementTake c).context c).progress = (s.context c).progress + 1
    ∧ (∀ l, s.pacing c = some l → l.state = .armed
        ∧ ((s.elementTake c).context c).progress + l.gap ≤ (s.context l.leader).progress
        ∧ ((s.elementTake c).context l.leader).progress = (s.context l.leader).progress)
    ∧ ∀ f l n, s.pacing f = some l → l.leader = c → l.state = .armed → (s.context f).state = .active →
        l.lead = some n → ((s.elementTake c).context c).progress ≤ (s.context f).progress + n := by
  obtain ⟨one, k, hk, hm⟩ := State.mayTake_of_progress_lt grown
  have w := State.waiting_of_nextElement hk
  obtain ⟨lost, behind, limited, -⟩ := w.mayTake_iff.mp hm
  have led := (State.notLost_notBehind_iff w.active).mp ⟨lost, behind⟩
  have within := State.not_leadLimited_iff.mp limited
  rw [one]
  refine ⟨w.active, rfl, fun l hl => ?_, fun f l n hl hc ha hf hn => within f l n hl hc ha hf hn⟩
  obtain ⟨armed, ahead⟩ := led l hl
  have apart : l.leader ≠ c := by
    intro e
    rw [e] at ahead
    omega
  exact ⟨armed, ahead, State.elementTake_progress_of_ne apart⟩

end Progress

/-- Settles O52: the step that raises a progress is an ELEMENT_TAKE that passed the pacing step. -/
theorem everyTakenElementIsPaced : Obligations.EveryTakenElementIsPaced := by
  intro s t c h grown
  obtain rfl | ⟨i, rest, h⟩ := exec_of_step h
  · exact absurd grown (lt_irrefl _)
  · obtain rfl := exec_elementTake_of_progress_lt h grown
    obtain rfl := Host.Outcome.next.inj h
    exact State.elementTake_paced (s := { s with pending := rest }) grown

/-! ### The aperture law (R20, R119) -/

theorem Region.meets_comm (a b : Region) : a.meets b = b.meets a := by
  rw [Bool.eq_iff_iff, Region.meets_iff, Region.meets_iff, and_comm]

theorem State.meetsAperture_iff {s : State} {q : Region} :
    s.meetsAperture q = false ↔ ∀ i, (s.aperture i).enabled = true → (s.aperture i).range.meets q = false := by
  simp [State.meetsAperture, State.apertureList, Region.meets_comm q]

/-- The law, with the target regions that the launch checks compare (R20). -/
theorem State.apertureLaw_iff {s : State} : s.ApertureLaw ↔
    (∀ i j : ApIx, i ≠ j → (s.aperture i).enabled = true → (s.aperture j).enabled = true →
      (s.aperture i).range.meets (s.aperture j).range = false)
    ∧ ∀ c q, (s.context c).Covers q → s.meetsAperture q = false := by
  simp only [State.ApertureLaw, State.meetsAperture_iff, Context.Covers, and_imp]
  exact and_congr_right fun _ => ⟨fun h c q hs hq i hi => h i c q hi hs hq, fun h i c q hi hs hq => h c q hs hq i hi⟩

section Law

variable {s t : State}

/-- With the apertures as they were, every running target region was one, or is clear of them. -/
theorem State.ApertureLaw.of_regions (law : s.ApertureLaw) (hap : t.apertures = s.apertures)
    (h : ∀ c q, (t.context c).Covers q → (s.context c).Covers q ∨ s.meetsAperture q = false) : t.ApertureLaw := by
  rw [State.apertureLaw_iff] at law ⊢
  obtain ⟨apart, clear⟩ := law
  rw [State.aperture_congr hap]
  refine ⟨apart, fun c q hq => ?_⟩
  rw [State.meetsAperture_congr hap]
  exact (h c q hq).elim (clear c q) id

theorem State.Moves.apertureLaw {ps : List Piece} {cs : Set Ctx} (h : State.Moves ps cs s t) (law : s.ApertureLaw) :
    t.ApertureLaw := law.of_regions h.apertures h.regions

/-- Moving an element changes no walk's target region. -/
theorem State.afterMove_apertureLaw (c : Ctx) (k : Taking) (law : s.ApertureLaw) : (s.afterMove c k).ApertureLaw := by
  refine law.of_regions ((s.afterMove_alters c k).same (p := .apertures) (by simp [walkPieces])) fun g q hq => .inl ?_
  have quiet := (s.moveElement_quiet c k).trans ((s.moveElement c k).advanceTake_quiet c k)
  simpa only [Context.Covers, State.afterMove, (quiet g).state, (quiet g).region] using hq

theorem State.elementTake_apertureLaw (c : Ctx) (law : s.ApertureLaw) : (s.elementTake c).ApertureLaw := by
  rcases s.elementTake_cases c with settled | ⟨k, -, -, moves⟩
  · rw [settled]
    exact (s.settle_resettled.moves (ps := [.ctx]) (cs := ∅) (List.Subset.refl _)).apertureLaw law
  · exact moves.apertureLaw (State.afterMove_apertureLaw c k law)

/-- An aperture that passes the checks is apart from the others and from every running target region (R119). -/
theorem State.apertureCheck_clear {ps : List Byte} {i : ApIx} {a : Aperture} (h : s.apertureCheck ps i a = none)
    (he : a.enabled = true) : (∀ l, l ≠ i → (s.aperture l).enabled = true → a.range.meets (s.aperture l).range = false)
      ∧ ∀ c q, (s.context c).Covers q → a.range.meets q = false := by
  unfold State.apertureCheck at h
  split_ifs at h with hv hu ho ht
  rw [he, Bool.true_and, State.meetsOther_iff] at ho
  rw [he, Bool.true_and, State.meetsTarget_iff] at ht
  constructor
  · intro l hl hen
    rw [← Bool.not_eq_true, Region.meets_iff]
    exact fun m => ho ⟨l, hl, hen, m⟩
  · rintro c q ⟨running, region⟩
    rw [← Bool.not_eq_true, Region.meets_iff]
    exact fun m => ht ⟨c, q, running, region, m⟩

theorem State.setAperture_apertureLaw {ps : List Byte} {i : ApIx} {a : Aperture}
    (h : s.apertureCheck ps i a = none) (law : s.ApertureLaw) : (s.setAperture i a).ApertureLaw := by
  obtain ⟨apart, clear⟩ := law
  refine ⟨fun j l hjl hj hl => ?_, fun j c q hj running region => ?_⟩
  · rw [State.aperture_setAperture] at hj hl ⊢
    rw [State.aperture_setAperture]
    split at hj <;> split at hl
    · rename_i ej el; exact absurd (ej.symm.trans el) hjl
    · rename_i ej el
      rw [if_pos ej, if_neg el]
      exact (State.apertureCheck_clear h hj).1 l (Ne.symm el) hl
    · rename_i ej el
      rw [if_neg ej, if_pos el, Region.meets_comm]
      exact (State.apertureCheck_clear h hl).1 j (Ne.symm ej) hj
    · rename_i ej el
      rw [if_neg ej, if_neg el]
      exact apart j l hjl hj hl
  · rw [State.aperture_setAperture] at hj ⊢
    split at hj
    · rename_i ej
      rw [if_pos ej]
      exact (State.apertureCheck_clear h hj).2 c q ⟨running, region⟩
    · rename_i ej
      rw [if_neg ej]
      exact clear j c q hj running region

theorem ownSetAperture_apertureLaw (args : List Byte) (law : s.ApertureLaw) :
    (ownSetAperture args s).state.ApertureLaw := by
  unfold ownSetAperture
  split
  · split
    · exact law
    · exact State.setAperture_apertureLaw (by assumption) law
  · exact law

/-- Every command keeps the law. -/
theorem exec_apertureLaw {i : Instr} (h : exec i s = .next t) (law : s.ApertureLaw) : t.ApertureLaw := by
  by_cases hreset : i = .hardwareReset
  · subst hreset
    obtain rfl := Host.Outcome.next.inj h
    obtain ⟨-, -, -, reset, -⟩ := resetMeetsTheLaws
    exact reset.of_regions rfl fun c q hq => .inl (by rwa [State.reset_context, ← s.hardwareReset_context c])
  by_cases hap : ∃ b, i = .setAperture b
  · obtain ⟨b, rfl⟩ := hap
    obtain rfl := Host.Outcome.next.inj h
    unfold State.command
    split
    · exact ownSetAperture_apertureLaw _ law
    · exact law
  by_cases htake : ∃ c, i = .elementTake c
  · obtain ⟨c, rfl⟩ := htake
    obtain rfl := Host.Outcome.next.inj h
    exact State.elementTake_apertureLaw c law
  obtain ⟨u, hu, moves⟩ := exec_moves hreset (not_exists.mp hap) (not_exists.mp htake) s
  obtain rfl := Host.Outcome.next.inj (hu.symm.trans h)
  exact moves.apertureLaw law

end Law

/-- Settles O56: walks are launched clear of the apertures, and apertures are enabled clear of the walks. -/
theorem everyStepKeepsApertureLaw : Obligations.EveryStepKeepsApertureLaw := by
  intro s t law h
  obtain rfl | ⟨i, rest, h⟩ := exec_of_step h
  · exact law
  · exact exec_apertureLaw h law

end Sys2Proof.Machine
end

section
/-! Cleared records (O3, O44) and the launch into an IDLE context (O21). -/

namespace Sys2Proof.Machine

open Sys2Proof

/-! ### The cleared record (R2, R6) -/

/-- The field codes of a cleared record (Table 5). -/
theorem Descriptor.cleared_fieldCode (f : Field) : Descriptor.cleared.fieldCode f =
    match f with
    | .laneMask => 0xF
    | .chain => 0xFF
    | .mark => 0xFFFFFFFF
    | .readAhead => 2
    | _ => 0 := by
  cases f with
  | count k | stride k | start k => revert k; decide
  | _ => rfl

/-- A cleared record has no mandatory field written (R17). -/
theorem State.launchCheck_cleared (s : State) : s.launchCheck .cleared = some .unwritten := by
  have h : Descriptor.cleared.mandatoryWritten = false := by decide
  simp [State.launchCheck, h]

theorem State.reset_desc (i : DescIx) : State.reset.desc i = .cleared := by
  simp [State.desc, State.reset, Vector.get_eq_getElem]

/-- Settles O3: HARDWARE_RESET leaves the tables of `State.reset`. -/
theorem hardwareResetClearsTables : Obligations.HardwareResetClearsTables := by
  refine fun s => ⟨s.hardwareReset, rfl, fun i => ?_, State.reset_aperture, State.reset_pacing, rfl, rfl, rfl, rfl, rfl,
    rfl, rfl, rfl, rfl, rfl, rfl, rfl, rfl, rfl, rfl, rfl, rfl⟩
  have cleared : s.hardwareReset.desc i = .cleared := State.reset_desc i
  rw [cleared]
  exact ⟨rfl, Descriptor.cleared_fieldCode⟩

theorem ownClearDesc_badIndex {s : State} {b : Byte} (h : 64 ≤ b.toNat) :
    ownClearDesc ([] ++ [b]) s = s.refuse .badIndex := by
  have out : 64 ≤ argByte ([] ++ [b]) 0 := h
  simp only [ownClearDesc, indexOf_out out]

theorem ownClearDesc_done {s : State} {b : Byte} {i : DescIx} (h : i.val = b.toNat) :
    ownClearDesc ([] ++ [b]) s = { state := s.setDesc i .cleared, status := .ok } := by
  have named : indexOf 64 (argByte ([] ++ [b]) 0) = some i := indexOf_eq h
  simp only [ownClearDesc, named]

/-- Settles O44: the command writes the cleared record. -/
theorem clearDescClearsOneRecord : Obligations.ClearDescClearsOneRecord := by
  intro s hw
  refine ⟨fun b h => congrArg Host.Outcome.next (State.command_refused hw rfl (ownClearDesc_badIndex h)),
    fun b i h => ⟨{ s.setDesc i .cleared with link := s.link.answered b .ok [] },
      congrArg Host.Outcome.next (State.command_done hw rfl (ownClearDesc_done h)), rfl, fun j hj => ?_, ?_⟩⟩
  · show (s.setDesc i .cleared).desc j = s.desc j
    rw [State.desc_setDesc, if_neg (Ne.symm hj)]
  · have cleared : State.desc { s.setDesc i .cleared with link := s.link.answered b .ok [] } i = .cleared :=
      State.desc_setDesc_self s i .cleared
    rw [cleared]
    exact ⟨State.launchCheck_cleared _, rfl, Descriptor.cleared_fieldCode⟩

/-! ### QUEUE_WALK into an IDLE context (R23, R109) -/

/-- A context that launches was not FAULTED, so its own launch changes no re-arming (R109). -/
theorem State.relaunched_eq {s : State} {c : Ctx} (h : (s.context c).state = .idle) (i : DescIx) :
    s.relaunched c i = (s.setPacing c ((s.pacing c).map fun l =>
      if l.state = .broken ∧ (s.context l.leader).state ≠ .faulted then { l with state := .armed } else l)).setContext c
        ((s.context c).launched i (s.desc i)) := by
  have faulted (g : Ctx) : ((s.setContext c ((s.context c).launched i (s.desc i))).context g).state = .faulted
      ↔ (s.context g).state = .faulted := by
    rw [State.context_setContext]
    split
    · rename_i e
      rw [← e, h]
      simp [Context.launched]
    · rfl
  rw [State.relaunched, State.rearm_eq]
  simp only [ne_eq, faulted]
  rfl

/-- Settles O21: the launch passes its checks, no transaction waits for a head check, and the waits are decided
afresh. -/
theorem queueWalkLaunchesIdleContext : Obligations.QueueWalkLaunchesIdleContext := by
  intro s c i hw hidle hempty hcheck d start link
  refine ⟨(s.launch c i).settle, congrArg Host.Outcome.next (State.command_done hw rfl (ownQueueWalk_idle i hidle)), ?_⟩
  have service : ((s.relaunched c i).context c).service = [] := by
    rw [State.relaunched_eq hidle, State.context_setContext_self]
    exact hempty
  rw [State.launch_accepted hcheck, State.promote_of_empty service, State.relaunched_eq hidle]
  exact State.settle_settles _

end Sys2Proof.Machine
end

section
/-! The arithmetic of walks: ordinals (O19) and the target region (O20). -/

namespace Sys2Proof.Machine

open Sys2Proof

/-! ### Positions as numbers in a mixed radix (R10, R12) -/

/-- The counters of the given levels, innermost first, as the digits of a number with the counts as its radices. -/
def Descriptor.digits (d : Descriptor) (c : Vector Nat 4) : List (Fin 4) → Nat
  | [] => 0
  | k :: ks => c.get k + d.count.get k * d.digits c ks

/-- The number of positions of the given levels. -/
def Descriptor.radix (d : Descriptor) (ks : List (Fin 4)) : Nat := (ks.map fun k => d.count.get k).prod

/-- Every counter of the given levels is below its count. -/
def Descriptor.InRange (d : Descriptor) (c : Vector Nat 4) (ks : List (Fin 4)) : Prop :=
  ∀ k ∈ ks, c.get k < d.count.get k

section Digits

variable {d : Descriptor} {c c' : Vector Nat 4} {k : Fin 4} {ks : List (Fin 4)}

@[simp] theorem Descriptor.radix_nil : d.radix [] = 1 := rfl

@[simp] theorem Descriptor.radix_cons : d.radix (k :: ks) = d.count.get k * d.radix ks := by simp [Descriptor.radix]

theorem Descriptor.inRange_cons : d.InRange c (k :: ks) ↔ c.get k < d.count.get k ∧ d.InRange c ks := by
  simp [Descriptor.InRange]

theorem Descriptor.digits_congr (h : ∀ k ∈ ks, c'.get k = c.get k) : d.digits c' ks = d.digits c ks := by
  induction ks with
  | nil => rfl
  | cons k ks ih =>
    rw [Descriptor.digits, Descriptor.digits, h k List.mem_cons_self, ih fun j hj => h j (List.mem_cons_of_mem k hj)]

theorem Descriptor.InRange.congr (hr : d.InRange c ks) (h : ∀ k ∈ ks, c'.get k = c.get k) : d.InRange c' ks :=
  fun k hk => h k hk ▸ hr k hk

theorem Descriptor.digits_lt (h : d.InRange c ks) : d.digits c ks < d.radix ks := by
  induction ks with
  | nil => simp [Descriptor.digits]
  | cons k ks ih =>
    obtain ⟨hk, hks⟩ := Descriptor.inRange_cons.mp h
    rw [Descriptor.digits, Descriptor.radix_cons]
    calc c.get k + d.count.get k * d.digits c ks
        < d.count.get k * (d.digits c ks + 1) := by rw [Nat.mul_succ]; omega
      _ ≤ d.count.get k * d.radix ks := Nat.mul_le_mul_left _ (ih hks)

theorem get_set {α : Type} (v : Vector α 4) (k j : Fin 4) (n : α) :
    (v.set k n).get j = if k = j then n else v.get j := by
  simp [Vector.get_eq_getElem, Vector.getElem_set, Fin.ext_iff]

theorem get_set_of_not_mem {j : Fin 4} {n : Nat} (hk : k ∉ ks) (hj : j ∈ ks) : (c.set k n).get j = c.get j := by
  rw [get_set, if_neg]
  rintro rfl
  exact hk hj

/-- The carry writes the given levels only. -/
theorem Descriptor.carry_get (d : Descriptor) (c : Vector Nat 4) {j : Fin 4} (h : j ∉ ks) :
    (d.carry ks c).1.get j = c.get j := by
  induction ks generalizing c with
  | nil => rfl
  | cons k ks ih =>
    obtain ⟨hk, hks⟩ : j ≠ k ∧ j ∉ ks := by simpa using h
    rw [Descriptor.carry]
    split
    · rw [ih _ hks, get_set, if_neg (Ne.symm hk)]
    · rw [get_set, if_neg (Ne.symm hk)]

/-- Without a carry out of the outermost level, the number grows by 1 and stays in range; with one it was the greatest,
and every counter is 0 (R12). -/
theorem Descriptor.carry_digits (hn : ks.Nodup) (hr : d.InRange c ks) :
    ((d.carry ks c).2 = false → d.digits (d.carry ks c).1 ks = d.digits c ks + 1 ∧ d.InRange (d.carry ks c).1 ks)
    ∧ ((d.carry ks c).2 = true → d.digits c ks + 1 = d.radix ks ∧ d.digits (d.carry ks c).1 ks = 0) := by
  induction ks generalizing c with
  | nil => simp [Descriptor.carry, Descriptor.digits]
  | cons k ks ih =>
    obtain ⟨hk, hnodup⟩ := List.nodup_cons.mp hn
    obtain ⟨hlt, hks⟩ := Descriptor.inRange_cons.mp hr
    have off (n : Nat) : ∀ j ∈ ks, (c.set k n).get j = c.get j := fun j hj => get_set_of_not_mem hk hj
    by_cases full : c.get k + 1 = d.count.get k
    · have zeroed : (d.carry ks (c.set k 0)).1.get k = 0 := by rw [d.carry_get _ hk, get_set, if_pos rfl]
      obtain ⟨goes, out⟩ := ih hnodup (hks.congr (off 0))
      rw [Descriptor.digits_congr (off 0)] at goes out
      simp only [Descriptor.carry, full, if_true, Descriptor.digits, Descriptor.radix_cons, Descriptor.inRange_cons,
        zeroed]
      refine ⟨fun e => ?_, fun e => ?_⟩
      · obtain ⟨value, range⟩ := goes e
        rw [value, Nat.mul_succ]
        exact ⟨by omega, by omega, range⟩
      · obtain ⟨top, value⟩ := out e
        rw [value, ← top, Nat.mul_succ]
        omega
    · simp only [Descriptor.carry, full, if_false, Descriptor.digits, Descriptor.inRange_cons, get_set, if_true]
      rw [Descriptor.digits_congr (off _)]
      exact ⟨fun _ => ⟨by omega, by omega, hks.congr (off _)⟩, fun e => absurd e (by simp)⟩

end Digits

/-- The weights of R10 are those of the digits: each level weighs the product of the counts of the levels below it. -/
theorem Descriptor.digits_eq_sum {d : Descriptor} {c : Vector Nat 4} {ks : List (Fin 4)} (h : ks.Pairwise (· < ·)) :
    (ks.map fun k => c.get k * d.radix (ks.filter fun j => j.val < k.val)).sum = d.digits c ks := by
  induction ks with
  | nil => rfl
  | cons k ks ih =>
    obtain ⟨below, sorted⟩ := List.pairwise_cons.mp h
    have none_below : ((k :: ks).filter fun j => j.val < k.val) = [] := by
      simp only [List.filter_eq_nil_iff, List.mem_cons, decide_eq_true_eq, Nat.not_lt]
      rintro j (rfl | hj)
      · exact le_rfl
      · exact (below j hj).le
    have above : ∀ j ∈ ks, c.get j * d.radix ((k :: ks).filter fun i => i.val < j.val)
        = d.count.get k * (c.get j * d.radix (ks.filter fun i => i.val < j.val)) := fun j hj => by
      rw [List.filter_cons_of_pos (by simpa using below j hj), Descriptor.radix_cons, Nat.mul_left_comm]
    rw [List.map_cons, List.sum_cons, none_below, List.map_congr_left above, List.sum_map_mul_left, ih sorted,
      Descriptor.digits, Descriptor.radix_nil, Nat.mul_one]

theorem Descriptor.dims_sorted (d : Descriptor) : d.dims.Pairwise (· < ·) :=
  List.Pairwise.filter _ (by decide)

theorem Descriptor.mem_dims {d : Descriptor} {k : Fin 4} : k ∈ d.dims ↔ k.val < d.levels := by
  have all : k ∈ ([0, 1, 2, 3] : List (Fin 4)) := by revert k; decide
  simp [Descriptor.dims, List.mem_filter, all]

theorem Descriptor.ordinal_eq (d : Descriptor) (c : Vector Nat 4) : d.ordinal c = d.digits c d.dims :=
  Descriptor.digits_eq_sum d.dims_sorted

theorem Descriptor.positions_eq (d : Descriptor) : d.positions = d.radix d.dims := rfl

/-- Settles O19: an advance is the carry of a number in a mixed radix. -/
theorem advanceRaisesOrdinalByOne : Obligations.AdvanceRaisesOrdinalByOne := by
  intro d c _ h
  have range : d.InRange c d.dims := fun k hk => h k (Descriptor.mem_dims.mp hk)
  obtain ⟨goes, out⟩ := Descriptor.carry_digits (d.dims_sorted.imp fun h => ne_of_lt h) range
  simp only [Descriptor.ordinal_eq, Descriptor.positions_eq]
  refine ⟨Descriptor.digits_lt range, ?_⟩
  unfold Descriptor.advance
  rcases hcarry : d.carry d.dims c with ⟨c', carried⟩
  rw [hcarry] at goes out
  cases carried with
  | false =>
    obtain ⟨next, inside⟩ := goes rfl
    exact ⟨next, fun k hk => inside k (Descriptor.mem_dims.mpr hk)⟩
  | true =>
    obtain ⟨last, zero⟩ := out rfl
    cases hend : d.endless with
    | true => simpa [hend] using ⟨last, zero⟩
    | false => simpa [hend] using last

/-! ### The target region (R9, R16) -/

/-- What a level adds to the address lies between its least and its greatest contribution. -/
theorem between_extents {stride : Int} {n count : Nat} (h : n < count) :
    min 0 (stride * ((count : Int) - 1)) ≤ stride * (n : Int)
      ∧ stride * (n : Int) ≤ max 0 (stride * ((count : Int) - 1)) := by
  have top : (n : Int) ≤ (count : Int) - 1 := by omega
  have zero : (0 : Int) ≤ n := Int.natCast_nonneg n
  rcases le_total 0 stride with hs | hs
  · exact ⟨(min_le_left _ _).trans (mul_nonneg hs zero), (mul_le_mul_of_nonneg_left top hs).trans (le_max_right _ _)⟩
  · exact ⟨(min_le_right _ _).trans (mul_le_mul_of_nonpos_left top hs),
      (mul_nonpos_of_nonpos_of_nonneg hs zero).trans (le_max_left _ _)⟩

/-- Every byte of every element lies in the target region (R16). -/
theorem Descriptor.byte_mem_region {d : Descriptor} {c : Vector Nat 4} {j : Nat}
    (h : ∀ k : Fin 4, k.val < d.levels → c.get k < d.count.get k) (hj : j < d.memWidth) :
    d.region.lo ≤ d.address c + (j : Int) ∧ d.address c + (j : Int) ≤ d.region.hi := by
  have least : (d.dims.map fun k => min 0 (d.extent k)).sum
      ≤ (d.dims.map fun k => d.stride.get k * (c.get k : Int)).sum :=
    List.sum_le_sum fun k hk => (between_extents (h k (Descriptor.mem_dims.mp hk))).1
  have greatest : (d.dims.map fun k => d.stride.get k * (c.get k : Int)).sum
      ≤ (d.dims.map fun k => max 0 (d.extent k)).sum :=
    List.sum_le_sum fun k hk => (between_extents (h k (Descriptor.mem_dims.mp hk))).2
  simp only [Descriptor.region, Descriptor.address]
  omega

/-- Settles O20: a byte in an enabled aperture would make the aperture meet the target region. -/
theorem launchedElementsStayInRegion : Obligations.LaunchedElementsStayInRegion := by
  intro s d c j hcheck hc hj a
  obtain ⟨-, -, -, -, fits, clear⟩ := State.launchCheck_eq_none.mp hcheck
  obtain ⟨hlo, hhi⟩ : 0 ≤ d.region.lo ∧ d.region.hi ≤ 0xFFFFFFFF := by simpa [Descriptor.regionFits] using fits
  obtain ⟨above, below⟩ := Descriptor.byte_mem_region hc hj
  refine ⟨above, below, hlo.trans above, below.trans hhi, fun i enabled inside => ?_⟩
  have apart := State.meetsAperture_iff.mp clear i enabled
  rw [← Bool.not_eq_true, Region.meets_iff] at apart
  exact apart ⟨inside.1.trans below, above.trans inside.2⟩

end Sys2Proof.Machine
end

section
/-! Elements that are taken: the walk that goes on (O12), MARK (O16) and the walk that ends (O17). -/

namespace Sys2Proof.Machine

open Sys2Proof

/-! ### The state in which the element has moved (R12 to R15, R38) -/

section Moved

variable (s : State) (c : Ctx) (k : Taking)

/-- The record of a context one element further in its walk (R12, R14, R38). -/
def Taking.passed (k : Taking) (x : Context) : Context :=
  { x with
    take := (k.d.advance k.pos).1
    progress := x.progress + 1
    passes := if (k.d.advance k.pos).2 then x.passes + 1 else x.passes
    hold := .none
    shortfall := 0 }

/-- The MARK check follows the advance (R15). -/
theorem State.advanceTake_eq : s.advanceTake c k = if k.d.mark = some (k.d.ordinal k.pos)
    then (s.setContext c (k.passed (s.context c))).post ((s.setContext c (k.passed (s.context c))).markRecord c)
    else s.setContext c (k.passed (s.context c)) := rfl

theorem State.advanceTake_rest : s.advanceTake c k = { s with
    ctx := (s.advanceTake c k).ctx, events := (s.advanceTake c k).events, loss := (s.advanceTake c k).loss } := by
  rw [s.advanceTake_eq]
  generalize hr : s.setContext c (k.passed (s.context c)) = r
  have rest : r = { s with ctx := r.ctx, events := r.events, loss := r.loss } := by rw [← hr]; rfl
  split
  · rw [State.post_rest, rest]
  · exact rest

theorem State.afterMove_rest : s.afterMove c k = { s with
    ctx := (s.afterMove c k).ctx, slots := (s.afterMove c k).slots, events := (s.afterMove c k).events,
    loss := (s.afterMove c k).loss } := by
  unfold State.afterMove
  rw [State.advanceTake_rest, s.moveElement_rest c k]

theorem State.afterMove_context : (s.afterMove c k).context c = { k.passed (s.context c) with
    entries := ((s.afterMove c k).context c).entries, lines := ((s.afterMove c k).context c).lines } := by
  unfold State.afterMove
  rw [State.advanceTake_context, s.moveElement_context c k c]
  rfl

theorem State.afterMove_snapshot : ((s.afterMove c k).context c).snapshot = (s.context c).snapshot := by
  rw [s.afterMove_context c k]
  rfl

theorem State.afterMove_lines_read (hr : k.d.direction = .read) (g : Ctx) :
    ((s.afterMove c k).context g).lines = (s.context g).lines := by
  rw [State.afterMove, State.advanceTake_lines]
  simp only [State.moveElement, hr, State.context_setContext]
  split
  · rename_i e
    rw [← e]
  · rfl

/-- The record that the MARK check posts (R15). -/
def State.markOf (s : State) (c : Ctx) : EventRecord where
  kind := .mark
  timestamp := s.timebase
  context := some c
  serial := some (s.context c).serial
  value := some ((s.context c).progress + 1)

theorem State.markRecord_passed :
    (s.setContext c (k.passed (s.context c))).markRecord c = s.markOf c := by
  simp only [State.markRecord, State.context_setContext_self]
  rfl

theorem State.markOf_moveElement : (s.moveElement c k).markOf c = s.markOf c := by
  unfold State.markOf
  rw [s.moveElement_context c k c, s.moveElement_rest c k]

/-- The advance posts MARK at the MARK ordinal. -/
theorem State.afterMove_events_mark (h : k.d.mark = some (k.d.ordinal k.pos)) (room : s.events.length < 32) :
    (s.afterMove c k).events = s.events ++ [s.markOf c] := by
  have events : (s.moveElement c k).events = s.events := by rw [s.moveElement_rest c k]
  rw [State.afterMove, State.advanceTake_eq, if_pos h, State.markRecord_passed, s.markOf_moveElement c k,
    State.post_room (by exact events ▸ room)]
  exact congrArg (· ++ [s.markOf c]) events

/-- The advance posts nothing at another ordinal. -/
theorem State.afterMove_events (h : k.d.mark ≠ some (k.d.ordinal k.pos)) : (s.afterMove c k).events = s.events := by
  rw [State.afterMove, State.advanceTake_eq, if_neg h]
  show (s.moveElement c k).events = s.events
  rw [s.moveElement_rest c k]

theorem State.events_prefix_afterMove : s.events <+: (s.afterMove c k).events := by
  have events : (s.moveElement c k).events = s.events := by rw [s.moveElement_rest c k]
  rw [← events, State.afterMove, State.advanceTake_eq]
  split
  · exact State.post_events ((s.moveElement c k).setContext c (k.passed ((s.moveElement c k).context c))) _
  · exact List.prefix_refl _

end Moved

/-! ### A walk that goes on (R37, R38) -/

/-- What serving one Service Queue may change, with the waits decided afresh. -/
theorem State.ServesQueue.rest {c : Ctx} {s t : State} (h : State.ServesQueue c s t) : t = { s with
    ctx := t.ctx, slots := t.slots, responses := t.responses, events := t.events, loss := t.loss } := by
  have links := h.links
  rw [h.serves.rest] at links ⊢
  rw [links]

/-- Settles O12: the element advances its walk, and head checks and the waits leave walks where they are. -/
theorem takenElementAdvancesWalk : Obligations.TakenElementAdvancesWalk := by
  intro s c k p w hk hm ha hp
  have take : ((s.afterMove c k).context c).take ≠ .exhausted := by rw [s.afterMove_take, ha]; simp
  have q := State.afterTake_servesQueue take (by rw [s.afterMove_progress]; exact hp)
  have r := ((s.afterMove c k).afterTake c).settle_resettled
  have moved := s.afterMove_rest c k
  have own := s.afterMove_context c k
  have other (g : Ctx) (hg : g ≠ c) : (s.context g).SameWalk ((s.afterMove c k).context g) := by
    rw [State.afterMove_context_of_ne hg]
    rfl
  have responses := s.afterMove_responses c k
  have events := s.events_prefix_afterMove c k
  refine ⟨_, congrArg Host.Outcome.next (State.elementTake_taken hk hm), ?_⟩
  generalize ((s.afterMove c k).afterTake c).settle = t at r
  generalize (s.afterMove c k).afterTake c = u at q r
  generalize s.afterMove c k = m at q moved own other responses events
  refine ⟨?_, ?_, fun g hg => ?_, ?_, ?_⟩
  · rw [r.rest, q.rest, moved]
  · dsimp only
    rw [(r.contexts c).rest, q.serves.contexts c, own, Taking.passed, ha]
  · refine (other g hg).trans ?_
    rw [← q.others g hg]
    exact (r.contexts g).sameWalk
  · rw [r.responses, ← responses]
    exact q.serves.responses
  · rw [r.events]
    exact events.trans q.serves.events

/-! ### The records of a taken element (R15, R168) -/

/-- The kinds of record that a completed drain may post. -/
def drainKinds : List EventKind := .walkDone :: launchKinds

theorem State.reported_upholds (s : State) (c : Ctx) (d : Descriptor) :
    State.Upholds drainKinds s (s.reported c d) := by
  unfold State.reported
  split
  · exact s.post_upholds _ (by simp [drainKinds, State.walkDoneRecord, State.record])
  · exact .refl s _

section Records

variable {s : State} {c : Ctx} {d : Descriptor} (hd : (s.context c).snapshot = some d)
include hd

theorem State.drainIfDone_upholds : State.Upholds drainKinds s (s.drainIfDone c) := by
  unfold State.drainIfDone
  split
  · exact (s.reported_upholds c d).trans ((State.completeDrain_upholds hd).mono (by simp [drainKinds]))
  · exact .refl s _

/-- The end of a walk posts the records of a drain only. -/
theorem State.endWalk_upholds (why : EndCause) : State.Upholds drainKinds s (s.endWalk c why) := by
  have ended : State.Upholds drainKinds s (s.setContext c ((s.context c).ended why)) :=
    State.setContext_upholds s c _ _
  have snapshot : ((s.setContext c ((s.context c).ended why)).context c).snapshot = some d := by
    rw [State.context_setContext_self, Context.ended_snapshot, hd]
  unfold State.endWalk
  dsimp only
  split
  · have discarded : State.Upholds drainKinds (s.setContext c ((s.context c).ended why))
        ((s.setContext c ((s.context c).ended why)).discardReadAhead c) :=
      .of_eq (by rfl) (by rfl) (by rfl) _
    refine (ended.trans discarded).trans (State.drainIfDone_upholds (d := d) ?_)
    rw [State.discardReadAhead_context, if_pos rfl]
    exact snapshot
  · exact ended.trans (State.drainIfDone_upholds snapshot)

end Records

/-! ### A head cut short by the end of its walk (R25, R41) -/

/-- The reason for a head that still needs elements when its walk ends by an element. -/
def EndCause.cutReason : EndCause → HostReason
  | .exhausted => .overrun
  | _ => .ended

/-- The state in which the head was answered: it has all its elements, or its walk ends. -/
def State.cutShort (s : State) (c : Ctx) (cause : EndCause) : State :=
  (if s.demand c = 0 then s.finishHead c (s.headReason c) else s).cutHead c cause.cutReason

/-- The element has ended its walk, with this cause (R13, R25). -/
def State.EndsBy (s : State) (c : Ctx) (cause : EndCause) : Prop :=
  (cause = .exhausted ∧ (s.context c).take = .exhausted)
    ∨ (cause = .limit ∧ (s.context c).take ≠ .exhausted ∧ (s.context c).progress = Config.progressLimit)

section Cut

variable {s : State} {c : Ctx} {cause : EndCause}

theorem State.cutHead_servesQueue (why : HostReason) : State.ServesQueue c s (s.cutHead c why) := by
  unfold State.cutHead
  split
  · exact s.finishHead_servesQueue c _
  · exact .refl s c

theorem State.cutShort_servesQueue : State.ServesQueue c s (s.cutShort c cause) := by
  unfold State.cutShort
  split
  · exact (s.finishHead_servesQueue c _).trans (State.cutHead_servesQueue _)
  · exact State.cutHead_servesQueue _

/-- The walk ends after its head was answered. -/
theorem State.afterTake_ends (h : s.EndsBy c cause) : s.afterTake c = (s.cutShort c cause).endWalk c cause := by
  have answered : s.Serves (if s.demand c = 0 then s.finishHead c (s.headReason c) else s) := by
    split
    · exact s.finishHead_serves c _
    · exact .refl s
  unfold State.afterTake State.cutShort
  dsimp only
  rw [answered.take, answered.progress]
  rcases h with ⟨rfl, take⟩ | ⟨rfl, take, limit⟩
  · rw [if_pos take]
    rfl
  · rw [if_neg take, if_pos limit]
    rfl

/-- After the element a walk goes on, or it ends. -/
theorem State.afterTake_upholds {d : Descriptor} (hd : (s.context c).snapshot = some d) :
    State.Upholds drainKinds s (s.afterTake c) := by
  by_cases ends : ∃ cause, s.EndsBy c cause
  · obtain ⟨cause, h⟩ := ends
    have q : State.ServesQueue c s (s.cutShort c cause) := State.cutShort_servesQueue
    rw [State.afterTake_ends h]
    exact (q.upholds.mono (by simp [drainKinds, launchKinds])).trans
      (State.endWalk_upholds (by rw [q.serves.snapshot, hd]) cause)
  · have take : (s.context c).take ≠ .exhausted := fun h => ends ⟨.exhausted, .inl ⟨rfl, h⟩⟩
    have limit : (s.context c).progress ≠ Config.progressLimit := fun h => ends ⟨.limit, .inr ⟨rfl, take, h⟩⟩
    exact (State.afterTake_servesQueue take limit).upholds.mono (by simp [drainKinds, launchKinds])

end Cut

/-- Settles O16: the advance posts MARK, and what follows it posts other records. -/
theorem markIsPostedAtItsOrdinal : Obligations.MarkIsPostedAtItsOrdinal := by
  intro s c k hk hm
  have snapshot : ((s.afterMove c k).context c).snapshot = some k.d := by
    rw [s.afterMove_snapshot, (State.waiting_of_nextElement hk).snapshot]
  have after := (State.afterTake_upholds snapshot).trans
    (((s.afterMove c k).afterTake c).settle_resettled.upholds drainKinds)
  refine ⟨_, congrArg Host.Outcome.next (State.elementTake_taken hk hm), fun mark room => ?_, fun mark e he kind => ?_⟩
  · have posted := after.events
    rw [s.afterMove_events_mark c k mark room] at posted
    exact posted
  · rcases after.kinds e he with old | new
    · rwa [s.afterMove_events c k mark] at old
    · rw [kind] at new
      exact absurd new (by decide)

end Sys2Proof.Machine
end

section
/-! The element that ends its walk (O17). -/

namespace Sys2Proof.Machine

open Sys2Proof

/-! ### The head of a walk that ends (R25, R40, R41) -/

/-- The slot is poisoned by this element or was before (R40). -/
theorem Taking.newSlot_poisoned {k : Taking} {x : Context} (h : x.dataOrSpace k.d k.pos = true) :
    (k.newSlot x).poisoned = true ↔
      k.head.poisoned = true ∨ (k.d.direction = .read ∧ x.entries.head?.map Entry.state = some .poisoned) := by
  cases hd : k.d.direction with
  | write => simp [Taking.newSlot, hd]
  | read =>
    obtain ⟨e, rest, he, ⟨data, hst⟩ | hst⟩ := (Context.dataOrSpace_read hd).mp h
    · simp [Taking.newSlot, Taking.readSlot, hd, he, hst]
    · simp [Taking.newSlot, Taking.readSlot, hd, he, hst]

section Head

variable {s : State} {c : Ctx} {cause : EndCause} {u : HostTag} {rest : List HostTag} {x : HostSlot}
  (hs : (s.context c).service = u :: rest) (hx : s.slot u = some x) (ho : x.answer = none)
include hs hx ho

/-- A head that has all its elements is answered by its poisoned mark. -/
theorem State.cutShort_complete (h : s.demand c = 0) : ∃ y, (s.cutShort c cause).slot u = some y
    ∧ y.answer = some ⟨if x.poisoned then .fault else .okay, x.readData⟩ := by
  have reason : s.headReason c = if x.poisoned then some .memory else none := by
    simp only [State.headReason, State.head_of_service hs hx]
  obtain ⟨-, answered, -⟩ := State.finishHead_open hs hx ho (s.headReason c)
  have q : State.ServesQueue c (s.finishHead c (s.headReason c)) (s.cutShort c cause) := by
    unfold State.cutShort
    rw [if_pos h]
    exact State.cutHead_servesQueue _
  obtain ⟨y, hy, hya⟩ := q.upholds.answers u _ _ answered rfl
  refine ⟨y, hy, hya.trans ?_⟩
  rw [reason]
  cases x.poisoned <;> rfl

/-- A head that still needs elements is answered FAULT, and its record tells why, where the Event Queue has room. -/
theorem State.cutShort_cut (h : s.demand c ≠ 0) :
    (∃ y, (s.cutShort c cause).slot u = some y ∧ y.answer = some ⟨.fault, x.readData⟩)
    ∧ (s.events.length < 32 → s.hostFaultRecord u x cause.cutReason ∈ (s.cutShort c cause).events) := by
  have cut : s.cutShort c cause = s.finishHead c (some cause.cutReason) := by
    rw [State.cutShort, if_neg h, State.cutHead, if_pos (Nat.pos_of_ne_zero h)]
  obtain ⟨-, answered, -⟩ := State.finishHead_open hs hx ho (some cause.cutReason)
  rw [cut]
  refine ⟨⟨_, answered, rfl⟩, fun room => ?_⟩
  rw [s.finishHead_cons hs, State.answer_fault hx ho, State.post_room (by exact room)]
  exact List.mem_append_right _ (List.mem_singleton_self _)

end Head

/-! ### A write walk that ends with lines (R28, R39) -/

/-- The context is DRAINING, its lines ISSUING, and the rest of its walk stands. -/
theorem State.endWalk_draining {s : State} {c : Ctx} {d : Descriptor} (hd : (s.context c).snapshot = some d)
    (hw : d.direction = .write) (hl : (s.context c).lines ≠ []) (why : EndCause) :
    let y := (s.endWalk c why).settle.context c
    y.state = .draining ∧ y.endCause = some why ∧ y.take = (s.context c).take ∧ y.progress = (s.context c).progress
      ∧ y.region = (s.context c).region ∧ y.serial = (s.context c).serial ∧ y.launchQ = (s.context c).launchQ
      ∧ y.lines ≠ [] ∧ (∀ l ∈ y.lines, l.state = .issuing) ∧ y.hold = if y.service = [] then .none else .next := by
  have record : (s.endWalk c why).context c = (s.context c).ended why := by
    rw [State.endWalk_write hd hw (.inl hl), State.context_setContext_self]
  have r := (s.endWalk c why).settle_resettled
  obtain ⟨hold, issued⟩ := State.settle_ended record
  dsimp only
  rw [r.state, r.endCause, r.take, r.progress, r.region, r.serial, r.launchQ, r.service, hold, issued, record]
  refine ⟨rfl, rfl, rfl, rfl, rfl, rfl, rfl, by simpa using hl, fun l hl => ?_, ?_⟩
  · obtain ⟨l₀, -, rfl⟩ := List.mem_map.mp hl
    rfl
  · rw [Context.ended_service]
    cases (s.context c).service <;> rfl

/-! ### A read walk that no walk follows (R29, R30, R71) -/

section Idle

variable {s : State} {c : Ctx} {d : Descriptor} {why : EndCause}

/-- The state of an ended read walk before its drain completes. -/
def State.readEnded (s : State) (c : Ctx) (why : EndCause) : State :=
  (s.setContext c ((s.context c).ended why)).discardReadAhead c

theorem State.readEnded_context : (s.readEnded c why).context c
    = { (s.context c).ended why with entries := [] } := by
  rw [State.readEnded, State.discardReadAhead_context, if_pos rfl, State.context_setContext_self]

theorem State.readEnded_track (m : MemTag) : (s.readEnded c why).track m = (s.track m).map fun e =>
    if e.origin.isReadOf c = true then { e with detached := true } else e := by
  rw [State.readEnded, State.discardReadAhead, State.detach_track]
  simp only [Bool.true_or, Bool.and_true]
  rfl

theorem State.reported_track (m : MemTag) : (s.reported c d).track m = s.track m := by
  unfold State.reported
  split <;> simp

variable (hd : (s.context c).snapshot = some d) (hr : d.direction = .read) (hl : (s.context c).lines = [])
  (hat : s.attachedWrites c = 0) (hq : (s.context c).launchQ = []) (hc : why ≠ .exhausted ∨ d.chain = none)
include hd hr hl hat hq hc

/-- The context is IDLE, its reads are detached and its Service Queue is answered. -/
theorem State.endWalk_idle : (s.endWalk c why).context c = { (s.context c).ended why with
      state := .idle, region := none, service := [], headChecked := false, hold := .none, shortfall := 0,
      entries := [] }
    ∧ ∀ m, (s.endWalk c why).track m = (s.track m).map fun e =>
      if e.origin.isReadOf c = true then { e with detached := true } else e := by
  have done : s.endWalk c why = (s.readEnded c why).completeDrain c := State.endWalk_read hd hr hl hat why
  have own : (s.readEnded c why).context c = { (s.context c).ended why with entries := [] } := State.readEnded_context
  rw [done, State.completeDrain_idle (d := d) (by rw [own]; exact hd)
    (hc.imp (fun h => by rw [own]; simpa using h) id) (by rw [own]; exact hq)]
  refine ⟨?_, fun m => ?_⟩
  · rw [State.answerAll_context, if_pos rfl, State.context_setContext_self, own]
  · rw [(State.answerAll_serves _ c _).track, ← State.readEnded_track]
    exact State.reported_track m

end Idle

/-! ### The taken element and its walk -/

section Taken

variable {s : State} {c : Ctx} {k : Taking} {cause : EndCause}

theorem State.Waiting.afterMove_service (w : s.Waiting c k) :
    ∃ rest, ((s.afterMove c k).context c).service = k.tag :: rest := by
  obtain ⟨rest, hs⟩ := State.service_of_head w.head
  exact ⟨rest, by rw [s.afterMove_service, hs]⟩

theorem State.afterMove_slot_tag : (s.afterMove c k).slot k.tag = some (k.newSlot (s.context c)) := by
  rw [s.afterMove_slot, if_pos rfl]

/-- The merge of a byte leaves a line (R77). -/
theorem State.afterMove_lines_ne_nil (hw : k.d.direction = .write) (hb : k.bytes ≠ []) :
    ((s.afterMove c k).context c).lines ≠ [] := by
  obtain ⟨b, hb⟩ := List.exists_mem_of_ne_nil _ hb
  obtain ⟨l, hl, -⟩ := (s.context c).mergeBytes_carries (now := s.timebase) (k.d.memoryBytes_distinct _ _) hb
  have same : ((s.afterMove c k).context c).lines.map GatherLine.issue
      = (k.mergedInto s c).lines.map GatherLine.issue := by
    rw [State.afterMove_lines_write hw, if_pos rfl, Context.issueFull_lines]
  obtain ⟨l', hl', -⟩ := mem_of_issue_eq same hl
  exact List.ne_nil_of_mem hl'

/-- The advance of the element that ends its walk (R13, R25). -/
theorem State.afterMove_endsBy (h : (cause = .exhausted ∧ (k.d.advance k.pos).1 = .exhausted)
    ∨ (cause = .limit ∧ (k.d.advance k.pos).1 ≠ .exhausted ∧ (s.context c).progress + 1 = 2 ^ 48 - 1)) :
    (s.afterMove c k).EndsBy c cause := by
  unfold State.EndsBy
  rw [s.afterMove_take, s.afterMove_progress]
  exact h

/-- The head is answered: FAULT with the reason of the end where it still needs elements or is poisoned, OKAY
otherwise (R40, R41). -/
theorem State.Waiting.answered_at_end (w : s.Waiting c k) (data : (s.context c).dataOrSpace k.d k.pos = true)
    (hopen : k.head.answer = none) {t : State}
    (up : State.Upholds drainKinds ((s.afterMove c k).cutShort c cause) t) :
    ∃ y, t.slot k.tag = some y
      ∧ y.answer.map HostAnswer.status = some (if k.head.taken + 1 < k.head.count.getD 0 ∨ k.head.poisoned = true
        ∨ (k.d.direction = .read ∧ (s.context c).entries.head?.map Entry.state = some .poisoned) then .fault else .okay)
      ∧ (k.head.taken + 1 < k.head.count.getD 0 → t.events.length < 32 → ∃ e ∈ t.events, e.kind = .hostFault
        ∧ e.tag = some k.tag ∧ e.reason = some cause.cutReason.toReason) := by
  obtain ⟨rest, hs⟩ := w.afterMove_service
  have hx : (s.afterMove c k).slot k.tag = some (k.newSlot (s.context c)) := State.afterMove_slot_tag
  have ho := (k.newSlot_fields (s.context c)).2.2.trans hopen
  have demand := w.afterMove_demand
  by_cases hn : k.head.taken + 1 < k.head.count.getD 0
  · obtain ⟨⟨y, hy, hya⟩, record⟩ := State.cutShort_cut (cause := cause) hs hx ho (by omega)
    obtain ⟨z, hz, hza⟩ := up.answers k.tag y _ hy hya
    refine ⟨z, hz, ?_, fun _ room => ?_⟩
    · rw [hza, if_pos (.inl hn)]
      rfl
    · have q : State.ServesQueue c (s.afterMove c k) ((s.afterMove c k).cutShort c cause) := State.cutShort_servesQueue
      have before := (q.upholds.events.trans up.events).length_le
      exact ⟨_, up.events.subset (record (by omega)), rfl, rfl, rfl⟩
  · obtain ⟨y, hy, hya⟩ := State.cutShort_complete (cause := cause) hs hx ho (by omega)
    obtain ⟨z, hz, hza⟩ := up.answers k.tag y _ hy hya
    refine ⟨z, hz, ?_, fun h => absurd h hn⟩
    rw [hza]
    simp only [hn, false_or, ← Taking.newSlot_poisoned data]
    rfl

end Taken

/-- Settles O17: the head is answered, then the walk ends as `endWalk_draining` and `endWalk_idle` say. -/
theorem exhaustedWriteWalkDrains : Obligations.ExhaustedWriteWalkDrains := by
  intro s c k cause hk hm hcause x needs poisoned
  have w := State.waiting_of_nextElement hk
  obtain ⟨-, -, -, data⟩ := w.mayTake_iff.mp hm
  have ends := State.afterMove_endsBy (s := s) (c := c) hcause
  have taken := (State.elementTake_taken hk hm).trans (congrArg State.settle (State.afterTake_ends ends))
  have own := s.afterMove_context c k
  have q : State.ServesQueue c (s.afterMove c k) ((s.afterMove c k).cutShort c cause) := State.cutShort_servesQueue
  have snapshot : (((s.afterMove c k).cutShort c cause).context c).snapshot = some k.d := by
    rw [q.serves.snapshot, s.afterMove_snapshot, w.snapshot]
  have r := (((s.afterMove c k).cutShort c cause).endWalk c cause).settle_resettled
  have up := (State.endWalk_upholds snapshot cause).trans (r.upholds drainKinds)
  refine ⟨_, congrArg Host.Outcome.next taken, fun hopen => ?_, fun hw hb => ?_, fun hr hl hat hq hc => ?_⟩
  · obtain ⟨y, hy, status, record⟩ := w.answered_at_end data hopen up
    refine ⟨y, hy, status, fun hn room => ?_⟩
    obtain ⟨e, he, kind, tag, reason⟩ := record hn room
    refine ⟨e, he, kind, tag, reason.trans ?_⟩
    rcases hcause with ⟨rfl, -⟩ | ⟨rfl, -⟩ <;> rfl
  · have lines : (((s.afterMove c k).cutShort c cause).context c).lines ≠ [] := by
      rw [q.serves.lines]
      exact State.afterMove_lines_ne_nil hw hb
    have draining := State.endWalk_draining snapshot hw lines cause
    rwa [q.serves.take, q.serves.progress, q.serves.region, q.serves.serial, q.serves.launchQ, own] at draining
  · have lines : (((s.afterMove c k).cutShort c cause).context c).lines = [] := by
      rw [q.serves.lines, s.afterMove_lines_read c k hr, hl]
    have rest := s.afterMove_rest c k
    have writes : ((s.afterMove c k).cutShort c cause).attachedWrites c = 0 := by
      rw [State.attachedWrites_congr q.serves.iq q.serves.track,
        State.attachedWrites_congr (s := s) (by rw [rest]) (fun m => by rw [rest]; rfl), hat]
    have none_queued : (((s.afterMove c k).cutShort c cause).context c).launchQ = [] := by
      rw [q.serves.launchQ, own]
      exact hq
    have none_chained : cause ≠ .exhausted ∨ k.d.chain = none := hc.imp (fun h => by rw [h]; decide) id
    obtain ⟨record, tracks⟩ := State.endWalk_idle snapshot hr lines writes none_queued none_chained
    have still := State.settle_context_idle (s := ((s.afterMove c k).cutShort c cause).endWalk c cause) (c := c)
      (by rw [record]) (by rw [record]) (by rw [record, Context.ended_lines, lines]; rfl)
    rw [still, record]
    refine ⟨rfl, rfl, ?_, ?_, rfl, ?_, rfl, rfl, rfl, fun m => ?_⟩
    · rw [Context.ended_take, q.serves.take, s.afterMove_take]
    · rw [Context.ended_progress, q.serves.progress, s.afterMove_progress]
    · rw [Context.ended_serial, q.serves.serial, own]
      rfl
    · rw [r.track, tracks, q.serves.track, rest]
      rfl

end Sys2Proof.Machine
end

section
/-! WRITE_DESC byte by byte (O43). -/

namespace Sys2Proof.Machine

open Sys2Proof

/-! ### A value set in a record (R3, R4) -/

section Put

variable {d d' : Descriptor} {f g : Field} {v : Nat}

/-- A value that Table 6 does not accept sets nothing. -/
theorem Descriptor.put_refused (hv : v < 256 ^ g.width) (h : ¬ g.accepts v) : d.put g v = none := by
  cases g with
  | base | start | mark => exact absurd trivial h
  | stride k =>
    have out : ¬ (-16777216 ≤ signedOf 4 v ∧ signedOf 4 v ≤ 16777215) := by
      simp only [Field.accepts, Field.width] at h hv
      unfold signedOf
      split <;> omega
    simp only [Descriptor.put, if_neg out]
  | conversion =>
    obtain ⟨n, rfl⟩ := Nat.exists_eq_add_of_lt (Nat.not_le.mp h)
    have unnamed : Conversion.ofCode (3 + n + 1) = none := by
      rw [show 3 + n + 1 = n + 4 by omega]
      rfl
    simp only [Descriptor.put, unnamed, Option.map_none]
  | chain =>
    simp only [Field.accepts, not_or] at h
    have out : indexOf 64 v = none := indexOf_out (by omega)
    simp only [Descriptor.put, if_neg h.2, out, Option.map_none]
  | direction =>
    simp only [Field.accepts] at h
    simp only [Descriptor.put, if_neg (show v ≠ 0 by omega), if_neg (show v ≠ 1 by omega)]
  | levels | count | memWidth | hostSize | laneMask | endless | doneEvent | readAhead =>
    simp only [Field.accepts] at h
    simp only [Descriptor.put, ite_eq_right_iff, reduceCtorEq, imp_false]
    omega

/-- The code of a stride is the value that set it. -/
theorem unsignedOf_signedOf {w v : Nat} (hw : 1 ≤ w) (hv : v < 256 ^ w) : unsignedOf w (signedOf w v) = v := by
  have hpow := two_pow_bits hw
  rw [pow_256_eq] at hv
  have wide : (v : Int) < 2 ^ (8 * w) := by exact_mod_cast hv
  unfold unsignedOf signedOf
  split
  · rw [Int.emod_eq_of_lt (by omega) wide, Int.toNat_natCast]
  · rw [Int.sub_emod_right, Int.emod_eq_of_lt (by omega) wide, Int.toNat_natCast]

/-- `d'` is `d` with the field `g` set to the value of code `v`, and nothing else changed. -/
structure Descriptor.Sets (d : Descriptor) (g : Field) (v : Nat) (d' : Descriptor) : Prop where
  value : d'.fieldCode g = v
  others : ∀ f, f ≠ g → d'.fieldCode f = d.fieldCode f
  marks : d'.marks = d.marks

/-- COUNT, STRIDE and START of a level leave those of the other levels. -/
theorem get_set_of_ne {α : Type} {v : Vector α 4} {k j : Fin 4} {n : α} (h : k ≠ j) : (v.set k n).get j = v.get j := by
  rw [get_set, if_neg h]

theorem get_set_self {α : Type} {v : Vector α 4} {k : Fin 4} {n : α} : (v.set k n).get k = n := by
  rw [get_set, if_pos rfl]

theorem Descriptor.sets_direction (m : Kind) : d.Sets .direction (kindCode m) { d with direction := m } :=
  ⟨rfl, fun f hne => by cases f with | direction => exact absurd rfl hne | _ => rfl, rfl⟩

theorem Descriptor.sets_conversion (m : Conversion) : d.Sets .conversion m.code { d with conversion := m } :=
  ⟨rfl, fun f hne => by cases f with | conversion => exact absurd rfl hne | _ => rfl, rfl⟩

theorem Descriptor.sets_endless (m : Bool) : d.Sets .endless m.toNat { d with endless := m } :=
  ⟨rfl, fun f hne => by cases f with | endless => exact absurd rfl hne | _ => rfl, rfl⟩

theorem Descriptor.sets_doneEvent (m : Bool) : d.Sets .doneEvent m.toNat { d with doneEvent := m } :=
  ⟨rfl, fun f hne => by cases f with | doneEvent => exact absurd rfl hne | _ => rfl, rfl⟩

theorem Descriptor.sets_base (h : v < 2 ^ 32) : d.Sets .base v { d with base := BitVec.ofNat 32 v } :=
  ⟨Nat.mod_eq_of_lt h, fun f hne => by cases f with | base => exact absurd rfl hne | _ => rfl, rfl⟩

theorem Descriptor.sets_laneMask (h : v < 2 ^ 4) : d.Sets .laneMask v { d with laneMask := BitVec.ofNat 4 v } :=
  ⟨Nat.mod_eq_of_lt h, fun f hne => by cases f with | laneMask => exact absurd rfl hne | _ => rfl, rfl⟩

theorem Descriptor.sets_levels : d.Sets .levels v { d with levels := v } :=
  ⟨rfl, fun f hne => by cases f with | levels => exact absurd rfl hne | _ => rfl, rfl⟩

theorem Descriptor.sets_memWidth : d.Sets .memWidth v { d with memWidth := v } :=
  ⟨rfl, fun f hne => by cases f with | memWidth => exact absurd rfl hne | _ => rfl, rfl⟩

theorem Descriptor.sets_hostSize : d.Sets .hostSize v { d with hostSize := v } :=
  ⟨rfl, fun f hne => by cases f with | hostSize => exact absurd rfl hne | _ => rfl, rfl⟩

theorem Descriptor.sets_readAhead : d.Sets .readAhead v { d with readAhead := v } :=
  ⟨rfl, fun f hne => by cases f with | readAhead => exact absurd rfl hne | _ => rfl, rfl⟩

theorem Descriptor.sets_chain (i : Option DescIx) :
    d.Sets .chain ((i.map Fin.val).getD 0xFF) { d with chain := i } :=
  ⟨rfl, fun f hne => by cases f with | chain => exact absurd rfl hne | _ => rfl, rfl⟩

theorem Descriptor.sets_mark (m : Option Nat) : d.Sets .mark (m.getD 0xFFFFFFFF) { d with mark := m } :=
  ⟨rfl, fun f hne => by cases f with | mark => exact absurd rfl hne | _ => rfl, rfl⟩

theorem Descriptor.sets_count (k : Fin 4) : d.Sets (.count k) v { d with count := d.count.set k v } :=
  ⟨get_set_self, fun f hne => by
    cases f with
    | count j => exact get_set_of_ne fun e => hne (e ▸ rfl)
    | _ => rfl, rfl⟩

theorem Descriptor.sets_start (k : Fin 4) : d.Sets (.start k) v { d with start := d.start.set k v } :=
  ⟨get_set_self, fun f hne => by
    cases f with
    | start j => exact get_set_of_ne fun e => hne (e ▸ rfl)
    | _ => rfl, rfl⟩

theorem Descriptor.sets_stride (k : Fin 4) (n : Int) :
    d.Sets (.stride k) (unsignedOf 4 n) { d with stride := d.stride.set k n } :=
  ⟨congrArg (unsignedOf 4) get_set_self, fun f hne => by
    cases f with
    | stride j => exact congrArg (unsignedOf 4) (get_set_of_ne fun e => hne (e ▸ rfl))
    | _ => rfl, rfl⟩

/-- An accepted value is set (R3, Tables 6 and 41). -/
theorem Descriptor.put_accepted (d : Descriptor) (hv : v < 256 ^ g.width) (h : g.accepts v) :
    ∃ d', d.put g v = some d' ∧ d.Sets g v d' := by
  cases g with
  | direction =>
    have bit : v = 0 ∨ v = 1 := Nat.le_one_iff_eq_zero_or_eq_one.mp h
    rcases bit with rfl | rfl
    · exact ⟨_, rfl, d.sets_direction .read⟩
    · exact ⟨_, rfl, d.sets_direction .write⟩
  | endless =>
    have bit : v = 0 ∨ v = 1 := Nat.le_one_iff_eq_zero_or_eq_one.mp h
    rcases bit with rfl | rfl
    · exact ⟨_, rfl, d.sets_endless false⟩
    · exact ⟨_, rfl, d.sets_endless true⟩
  | doneEvent =>
    have bit : v = 0 ∨ v = 1 := Nat.le_one_iff_eq_zero_or_eq_one.mp h
    rcases bit with rfl | rfl
    · exact ⟨_, rfl, d.sets_doneEvent false⟩
    · exact ⟨_, rfl, d.sets_doneEvent true⟩
  | conversion =>
    have mode : v = 0 ∨ v = 1 ∨ v = 2 ∨ v = 3 := by
      simp only [Field.accepts] at h
      omega
    rcases mode with rfl | rfl | rfl | rfl
    · exact ⟨_, rfl, d.sets_conversion .zero⟩
    · exact ⟨_, rfl, d.sets_conversion .sign⟩
    · exact ⟨_, rfl, d.sets_conversion .satUnsigned⟩
    · exact ⟨_, rfl, d.sets_conversion .satSigned⟩
  | levels => exact ⟨_, if_pos h, d.sets_levels⟩
  | memWidth => exact ⟨_, if_pos h, d.sets_memWidth⟩
  | hostSize => exact ⟨_, if_pos h, d.sets_hostSize⟩
  | readAhead => exact ⟨_, if_pos h, d.sets_readAhead⟩
  | base => exact ⟨_, rfl, d.sets_base hv⟩
  | laneMask =>
    refine ⟨_, if_pos h, d.sets_laneMask ?_⟩
    simp only [Field.accepts] at h
    omega
  | count k => exact ⟨_, if_pos (Nat.pos_of_ne_zero h), d.sets_count k⟩
  | start k => exact ⟨_, rfl, d.sets_start k⟩
  | stride k =>
    have bound : v < 256 ^ 4 := hv
    have within : -16777216 ≤ signedOf 4 v ∧ signedOf 4 v ≤ 16777215 := by
      simp only [Field.accepts] at h
      unfold signedOf
      split <;> omega
    have sets := d.sets_stride k (signedOf 4 v)
    rw [unsignedOf_signedOf (by omega) bound] at sets
    exact ⟨_, if_pos within, sets⟩
  | chain =>
    by_cases none_named : v = 0xFF
    · subst none_named
      exact ⟨_, rfl, d.sets_chain none⟩
    · have named : v < 64 := by
        simp only [Field.accepts] at h
        omega
      have entry : indexOf 64 v = some ⟨v, named⟩ := indexOf_val ⟨v, named⟩
      refine ⟨{ d with chain := some ⟨v, named⟩ }, ?_, d.sets_chain (some ⟨v, named⟩)⟩
      simp only [Descriptor.put, if_neg none_named, entry, Option.map_some]
  | mark =>
    have sets := d.sets_mark (if v = 0xFFFFFFFF then none else some v)
    by_cases off : v = 0xFFFFFFFF
    · simp only [off, if_true, Option.getD_none] at sets
      exact ⟨_, rfl, by simpa only [off, if_true] using sets⟩
    · simp only [off, if_false, Option.getD_some] at sets
      exact ⟨_, rfl, by simpa only [off, if_false] using sets⟩

/-- The fields stand in the READ_DESC reply in the order of their marks (Tables 41 and 42). -/
theorem Field.inReply_markBit (f : Field) : Field.inReply[f.markBit]? = some f := by
  cases f with
  | count k | stride k | start k => revert k; decide
  | _ => rfl

theorem Field.markBit_inj (h : f.markBit = g.markBit) : f = g :=
  Option.some.inj (by rw [← f.inReply_markBit, h, g.inReply_markBit])

theorem Field.markBit_lt (f : Field) : f.markBit < 24 := by
  obtain ⟨h, -⟩ := List.getElem?_eq_some_iff.mp f.inReply_markBit
  exact h

/-- The record with the mark of a field set (R1). -/
def Descriptor.marked (d : Descriptor) (g : Field) : Descriptor :=
  { d with marks := d.marks ||| BitVec.ofNat 24 (2 ^ g.markBit) }

theorem Descriptor.marked_fieldCode (d : Descriptor) (g f : Field) : (d.marked g).fieldCode f = d.fieldCode f := by
  cases f <;> rfl

/-- A mark that is set leaves the other marks. -/
theorem Descriptor.marked_written (d : Descriptor) (g f : Field) :
    (d.marked g).written f = (d.written f || decide (g = f)) := by
  have bit : (BitVec.ofNat 24 (2 ^ g.markBit)).getLsbD f.markBit = decide (g = f) := by
    rw [BitVec.getLsbD_ofNat, Nat.testBit_two_pow, decide_eq_true f.markBit_lt, Bool.true_and, decide_eq_decide]
    exact ⟨Field.markBit_inj, congrArg Field.markBit⟩
  rw [Descriptor.written, Descriptor.marked, BitVec.getLsbD_or, bit]
  rfl

/-- An accepted pair sets its field and its mark, and leaves every other field and mark (R3). -/
theorem Descriptor.write_accepted (d : Descriptor) {bytes : List Byte} (hlen : bytes.length = g.width)
    (h : g.accepts (decodeLE bytes)) : ∃ d', d.write g bytes = some d' ∧ d'.fieldCode g = decodeLE bytes
      ∧ d'.written g = true ∧ ∀ f, f ≠ g → d'.fieldCode f = d.fieldCode f ∧ d'.written f = d.written f := by
  obtain ⟨p, hp, sets⟩ := d.put_accepted (hlen ▸ decodeLE_lt bytes) h
  refine ⟨p.marked g, by simp only [Descriptor.write, hp]; rfl, ?_, ?_, fun f hne => ⟨?_, ?_⟩⟩
  · rw [Descriptor.marked_fieldCode, sets.value]
  · rw [Descriptor.marked_written, decide_eq_true rfl, Bool.or_true]
  · rw [Descriptor.marked_fieldCode, sets.others f hne]
  · rw [Descriptor.marked_written, decide_eq_false (Ne.symm hne), Bool.or_false, Descriptor.written, sets.marks]
    rfl

theorem Descriptor.write_refused (d : Descriptor) {bytes : List Byte} (hlen : bytes.length = g.width)
    (h : ¬ g.accepts (decodeLE bytes)) : d.write g bytes = none := by
  rw [Descriptor.write, Descriptor.put_refused (hlen ▸ decodeLE_lt bytes) h, Option.map_none]

end Put

/-! ### What a byte of WRITE_DESC brings about (R157) -/

section Byte

variable {s : State} {b : Byte}

section Stages

variable {i : DescIx} {n : Nat} {g : Field} (hi : s.link.desc = some i) (hn : s.link.pairs = some n)

theorem State.descByte_index (h : s.link.desc = none) {i : DescIx} (hb : i.val = b.toNat) :
    s.descByte b = .more { s.link with desc := some i } none := by
  simp only [State.descByte, h, indexOf_eq hb]

theorem State.descByte_badIndex (h : s.link.desc = none) (hb : 64 ≤ b.toNat) :
    s.descByte b = .done s.link .badIndex 0 none := by
  simp only [State.descByte, h, indexOf_out hb]

include hi

theorem State.descByte_pairs (h : s.link.pairs = none) (h₁ : 1 ≤ b.toNat) (h₂ : b.toNat ≤ 16) :
    s.descByte b = .more { s.link with pairs := some b.toNat } none := by
  simp only [State.descByte, hi, h, h₁, h₂, and_self, if_true]

theorem State.descByte_badPairs (h : s.link.pairs = none) (hb : b.toNat = 0 ∨ 16 < b.toNat) :
    s.descByte b = .done s.link .badValue 0 none := by
  have out : ¬ (1 ≤ b.toNat ∧ b.toNat ≤ 16) := by omega
  simp only [State.descByte, hi, h, if_neg out]

include hn

theorem State.descByte_field (h : s.link.field = none) (hb : Field.ofId b = some g) :
    s.descByte b = .more { s.link with field := some g } none := by
  simp only [State.descByte, hi, hn, h, hb]

theorem State.descByte_badField (h : s.link.field = none) (hb : Field.ofId b = none) :
    s.descByte b = .done s.link .badValue (s.link.applied + 1) none := by
  simp only [State.descByte, hi, hn, h, hb]

variable (hg : s.link.field = some g)
include hg

theorem State.descByte_value (h : s.link.value.length + 1 < g.width) :
    s.descByte b = .more { s.link with value := s.link.value ++ [b] } none := by
  simp only [State.descByte, hi, hn, hg, if_neg h.ne]

theorem State.descByte_pair (h : s.link.value.length + 1 = g.width) :
    s.descByte b = s.descPair s.link i n g (s.link.value ++ [b]) := by
  simp only [State.descByte, hi, hn, hg, if_pos h]

end Stages

variable (hphase : s.link.phase = .parameters) (hcode : s.link.code = some Command.writeDesc.code)
include hphase hcode

theorem Frame.writing_of : s.link.writing = true := by simp [Frame.writing, hphase, hcode]

/-- A byte that ends the command. -/
theorem State.exec_writeDesc {f : Frame} {st : Status} {m : Nat} {put : Option (DescIx × Descriptor)}
    (h : s.descByte b = .done f st m put) : exec (.writeDesc b) s
      = .next { s.putDesc put with link := f.answered b st [BitVec.ofNat 8 m] } := by
  refine congrArg Host.Outcome.next ?_
  simp only [State.writeDescEnd, Frame.writing_of hphase hcode, h, encodeLE_one, if_true]

/-- A byte after which the command goes on. -/
theorem State.exec_linkByteComplete {f : Frame} {put : Option (DescIx × Descriptor)} (h : s.descByte b = .more f put) :
    exec (.linkByteComplete b) s = .next { s.putDesc put with
      link := { f with count := s.link.count + 1, params := s.link.params ++ [b] } } := by
  refine congrArg Host.Outcome.next ?_
  simp only [State.linkByte, hphase, Frame.writing_of hphase hcode, h, if_true]

end Byte

/-- Settles O43: each stage by `descByte`, and the last byte of a pair by `Descriptor.write`. -/
theorem writeDescAppliesPairs : Obligations.WriteDescAppliesPairs := by
  intro s b hphase hcode f refused goes
  have ends {g : Frame} {st : Status} {m : Nat} {put : Option (DescIx × Descriptor)}
      (h : s.descByte b = .done g st m put) := State.exec_writeDesc hphase hcode h
  have goesOn {g : Frame} {put : Option (DescIx × Descriptor)} (h : s.descByte b = .more g put) :=
    State.exec_linkByteComplete hphase hcode h
  refine ⟨fun hi => ⟨fun hb => ?_, fun i hb => ?_⟩, fun i hi hn => ⟨fun hb => ?_, fun h₁ h₂ => ?_⟩,
    fun i n hi hn hg => ⟨fun hb => ?_, fun g hb => ?_⟩, fun i n g hi hn hg => ⟨fun hlen => ?_, fun hlen => ?_⟩⟩
  · exact ends (State.descByte_badIndex hi hb)
  · exact goesOn (State.descByte_index hi hb)
  · exact ends (State.descByte_badPairs hi hn hb)
  · exact goesOn (State.descByte_pairs hi hn h₁ h₂)
  · exact ends (State.descByte_badField hi hn hg hb)
  · exact goesOn (State.descByte_field hi hn hg hb)
  · exact goesOn (State.descByte_value hi hn hg hlen)
  · have pair := State.descByte_pair (b := b) hi hn hg hlen
    have width : (f.value ++ [b]).length = g.width := by simpa using hlen
    refine ⟨fun refuses => ?_, fun accepts => ?_⟩
    · rw [State.descPair, (s.desc i).write_refused width refuses] at pair
      exact ends pair
    · obtain ⟨d, hd, value, written, others⟩ := (s.desc i).write_accepted width accepts
      rw [State.descPair, hd] at pair
      refine ⟨d, value, written, others, fun last => ?_, fun more => ?_⟩
      · dsimp only at pair
        rw [if_pos last, last] at pair
        exact ends pair
      · dsimp only at pair
        rw [if_neg more] at pair
        exact goesOn pair

end Sys2Proof.Machine
end

section
/-! Read commands and the layout of their replies (O42). -/

namespace Sys2Proof.Machine

open Sys2Proof

/-! ### Replies as fields one after the other (Tables 42 to 45) -/

/-- The bytes of the fields, each given by its width and its value. -/
def layout (fs : List (Nat × Nat)) : List Byte := fs.flatMap fun f => encodeLE f.1 f.2

/-- The fields with their offsets, the first at `o`. -/
def placed : Nat → List (Nat × Nat) → List (Nat × Nat × Nat)
  | _, [] => []
  | o, (w, v) :: fs => (o, w, v) :: placed (o + w) fs

theorem layout_cons (w v : Nat) (fs : List (Nat × Nat)) : layout ((w, v) :: fs) = encodeLE w v ++ layout fs := rfl

theorem layout_length (fs : List (Nat × Nat)) : (layout fs).length = (fs.map Prod.fst).sum := by
  induction fs with
  | nil => rfl
  | cons f fs ih =>
    obtain ⟨w, v⟩ := f
    rw [layout_cons, List.length_append, encodeLE_length, ih, List.map_cons, List.sum_cons]

/-- A field stands at its offset. -/
theorem take_drop_of_placed {fs : List (Nat × Nat)} {o a w v : Nat} (h : (a, w, v) ∈ placed o fs) (pre : List Byte)
    (hpre : pre.length = o) : ((pre ++ layout fs).drop a).take w = encodeLE w v := by
  induction fs generalizing o pre with
  | nil => cases h
  | cons f fs ih =>
    obtain ⟨w', v'⟩ := f
    rw [layout_cons]
    rcases List.mem_cons.mp h with e | h
    · obtain ⟨rfl, rfl, rfl⟩ : a = o ∧ w = w' ∧ v = v' := by simpa using e
      rw [← hpre, List.drop_left, List.take_left' (encodeLE_length w v)]
    · rw [← List.append_assoc]
      exact ih h (pre ++ encodeLE w' v') (by rw [List.length_append, encodeLE_length, hpre])

/-- Each of the fields named stands in the reply at its offset. -/
theorem laid_of_layout {r : List Byte} {fs : List (Nat × Nat)} (h : r = layout fs) {n : Nat}
    (hn : (fs.map Prod.fst).sum = n) {fields : List (Nat × Nat × Nat)} (hsub : ∀ f ∈ fields, f ∈ placed 0 fs) :
    r.length = n ∧ ∀ f ∈ fields, (r.drop f.1).take f.2.1 = encodeLE f.2.1 f.2.2 := by
  subst h
  exact ⟨(layout_length fs).trans hn, fun f hf => take_drop_of_placed (hsub f hf) [] rfl⟩

/-- A byte is a field of one byte. -/
theorem encodeLE_byte (b : Byte) : encodeLE 1 b.toNat = [b] := by
  rw [encodeLE_one, BitVec.ofNat_toNat, BitVec.setWidth_eq]

/-! ### The replies (R7, R43, R99, R121, R171, R181) -/

theorem Descriptor.report_eq (d : Descriptor) : d.report = encodeLE 4 d.marks.toNat
    ++ Field.inReply.flatMap (fun f => encodeLE f.width (d.fieldCode f)) := by
  cases hc : d.chain <;>
    simp only [Descriptor.report, hc, Field.inReply, Field.width, Descriptor.fieldCode, Option.map_none,
      Option.map_some, Option.getD_none, Option.getD_some, List.flatMap_cons, List.flatMap_nil, List.append_nil, List.append_assoc]

theorem Descriptor.report_length (d : Descriptor) : d.report.length = 54 := by
  simp [d.report_eq, Field.inReply, Field.width]

theorem Aperture.report_layout (a : Aperture) : a.report
    = layout [(4, a.base.toNat), (1, a.sizeExp), (1, a.context), (1, if a.enabled = true then 1 else 0)] := by
  have bit : a.enabled.toNat = if a.enabled = true then 1 else 0 := by cases a.enabled <;> rfl
  rw [Aperture.report, bit]
  simp only [layout, List.flatMap_cons, List.flatMap_nil, List.append_nil, List.append_assoc]

theorem Settings.report_layout (t : Settings) : t.report
    = layout [(1, t.clockMhz), (2, t.memTimeoutUs), (3, t.paceLimitUs), (2, t.gatherAgeUs)] := by
  simp only [Settings.report, layout, List.flatMap_cons, List.flatMap_nil, List.append_nil, List.append_assoc]

theorem State.pacingReport_none {s : State} {f : Ctx} (h : s.pacing f = none) : s.pacingReport f
    = layout [(1, 0), (1, 0), (2, 0), (2, 0), (1, 0), (6, (s.context f).progress), (6, 0)] := by
  have zeros : List.replicate 7 (0 : Byte) = encodeLE 1 0 ++ (encodeLE 1 0 ++ (encodeLE 2 0 ++ (encodeLE 2 0
    ++ encodeLE 1 0))) := rfl
  simp only [State.pacingReport, h, zeros, layout, List.flatMap_cons, List.flatMap_nil, List.append_nil,
    List.append_assoc]

theorem State.pacingReport_some {s : State} {f : Ctx} {l : PacingLink} (h : s.pacing f = some l) : s.pacingReport f
    = layout [(1, 1), (1, l.leader), (2, l.gap), (2, l.lead.getD 0),
      (1, match l.state with | .armed => 1 | .broken => 2), (6, (s.context f).progress),
      (6, (s.context l.leader).progress)] := by
  simp only [State.pacingReport, h, layout, List.flatMap_cons, List.flatMap_nil, List.append_nil, List.append_assoc]
  rfl

theorem EventRecord.report_layout (e : EventRecord) : e.report = layout [(1, e.kind.code.toNat),
    (1, (if e.context.isSome then 1 else 0) + (if e.serial.isSome then 2 else 0)
      + (if e.descriptor.isSome then 4 else 0) + (if e.tag.isSome then 8 else 0)
      + (if e.address.isSome then 16 else 0) + (if e.reason.isSome then 32 else 0)
      + (if e.value.isSome then 64 else 0)),
    (4, e.timestamp.toNat), (1, (e.context.map Fin.val).getD 0), (2, (e.serial.map BitVec.toNat).getD 0),
    (1, (e.descriptor.map Fin.val).getD 0), (1, (e.tag.map Fin.val).getD 0), (4, e.address.getD 0),
    (1, (e.reason.map fun r => r.code.toNat).getD 0), (6, e.value.getD 0)] := by
  have reason : [(e.reason.map Reason.code).getD 0] = encodeLE 1 ((e.reason.map fun r => r.code.toNat).getD 0) := by
    cases e.reason with
    | none => rfl
    | some r => exact (encodeLE_byte r.code).symm
  simp only [EventRecord.report, reason, ← encodeLE_byte e.kind.code, layout, List.flatMap_cons, List.flatMap_nil,
    List.append_nil, List.append_assoc]
  rfl

/-- The direction of the walk that READ_CONTEXT reports (Table 43). -/
def Context.directionCode (x : Context) : Nat :=
  match x.snapshot.map Descriptor.direction with
  | some .read => 0
  | some .write => 1
  | none => 0xFF

/-- The end cause that READ_CONTEXT reports (Table 46). -/
def Context.endCode (x : Context) : Nat :=
  match x.endCause with
  | none => 0
  | some .exhausted => 1
  | some .ended => 2
  | some .limit => 3

/-- The fault reason that READ_CONTEXT reports (Table 46). -/
def Context.faultCode (x : Context) : Nat :=
  match x.faultReason with
  | none => 0
  | some .launchRefused => 4
  | some .writeFault => 5
  | some .memoryTimeout => 6

/-- The reply of READ_CONTEXT field by field (Table 43). -/
def Context.fields (x : Context) (h : Option (HostTag × Nat × Nat)) : List (Nat × Nat) :=
  [(1, x.state.code), (1, (x.descIndex.map Fin.val).getD 0xFF), (2, x.serial.toNat), (1, x.directionCode),
    (2, x.takeReport 0), (2, x.takeReport 1), (2, x.takeReport 2), (2, x.takeReport 3),
    (1, if x.take = .exhausted then 1 else 0), (6, x.progress), (4, x.passes.toNat), (1, x.endCode), (1, x.faultCode),
    (1, x.launchQ.length), (1, (x.launchQ[0]?.map Fin.val).getD 0xFF), (1, (x.launchQ[1]?.map Fin.val).getD 0xFF),
    (1, (x.launchQ[2]?.map Fin.val).getD 0xFF), (1, (x.launchQ[3]?.map Fin.val).getD 0xFF), (1, x.service.length),
    (1, (h.map fun h => h.1.val).getD 0xFF), (1, (h.map fun h => h.2.1).getD 0), (1, (h.map fun h => h.2.2).getD 0),
    (1, x.hold.code), (4, x.holdStart.toNat), (1, x.entries.length), (1, x.lines.length)]

theorem Context.report_layout (x : Context) (h : Option (HostTag × Nat × Nat)) : x.report h = layout (x.fields h) := by
  have direction : (x.snapshot.map fun d => kindCode d.direction).getD 0xFF = x.directionCode := by
    unfold Context.directionCode
    cases x.snapshot with
    | none => rfl
    | some d => cases hd : d.direction <;> simp [hd, kindCode]
  have exhausted : (x.take == .exhausted).toNat = if x.take = .exhausted then 1 else 0 := by
    cases x.take <;> rfl
  have ended : [(x.endCause.map fun r => r.toReason.code).getD 0] = encodeLE 1 x.endCode := by
    unfold Context.endCode
    rcases x.endCause with _ | r
    · rfl
    · cases r <;> rfl
  have faulted : [(x.faultReason.map fun r => r.toReason.code).getD 0] = encodeLE 1 x.faultCode := by
    unfold Context.faultCode
    rcases x.faultReason with _ | r
    · rfl
    · cases r <;> rfl
  unfold Context.report Context.fields
  simp only [direction, exhausted, ended, faulted, layout, List.flatMap_cons, List.flatMap_nil, List.append_nil,
    List.append_assoc]

section Table43

variable (x : Context) (h : Option (HostTag × Nat × Nat))

/-- The fields of Table 43 but the take counters and the Launch Queue, with their offsets and codes. -/
def Context.named : List (Nat × Nat × Nat) :=
  [(0, 1, match x.state with | .idle => 0 | .active => 1 | .draining => 2 | .faulted => 3),
    (1, 1, (x.descIndex.map Fin.val).getD 0xFF), (2, 2, x.serial.toNat), (4, 1, x.directionCode),
    (13, 1, if x.take = .exhausted then 1 else 0), (14, 6, x.progress), (20, 4, x.passes.toNat), (24, 1, x.endCode),
    (25, 1, x.faultCode), (26, 1, x.launchQ.length), (31, 1, x.service.length),
    (32, 1, (h.map fun h => h.1.val).getD 0xFF), (33, 1, (h.map fun h => h.2.1).getD 0),
    (34, 1, (h.map fun h => h.2.2).getD 0),
    (35, 1, match x.hold with | .none => 0 | .pace => 1 | .lead => 2 | .data => 3 | .line => 4 | .next => 5),
    (36, 4, x.holdStart.toNat), (40, 1, x.entries.length), (41, 1, x.lines.length)]

theorem Context.filter_fields : (placed 0 (x.fields h)).filter (fun f => f.1 < 5 || 13 ≤ f.1 && f.1 < 27 || 31 ≤ f.1)
    = x.named h := by
  unfold Context.fields Context.named
  simp only [placed]
  rfl

theorem Context.fields_width : ((x.fields h).map Prod.fst).sum = 42 := by
  simp [Context.fields]

theorem Context.report_named : (x.report h).length = 42
    ∧ ∀ f ∈ x.named h, ((x.report h).drop f.1).take f.2.1 = encodeLE f.2.1 f.2.2 := by
  refine laid_of_layout (x.report_layout h) (x.fields_width h) fun f hf => ?_
  rw [← x.filter_fields h] at hf
  exact (List.mem_filter.mp hf).1

/-- A take counter stands at its offset. -/
theorem Context.report_take (k : Fin 4) :
    ((x.report h).drop (5 + 2 * k.val)).take 2 = encodeLE 2 (x.takeReport k) := by
  have stands : (5 + 2 * k.val, 2, x.takeReport k) ∈ placed 0 (x.fields h) := by
    refine List.mem_of_getElem? (i := 4 + k.val) ?_
    fin_cases k <;> rfl
  rw [x.report_layout h]
  exact take_drop_of_placed stands [] rfl

/-- An entry of the Launch Queue stands at its offset. -/
theorem Context.report_launchQ (k : Fin 4) : (x.report h)[27 + k.val]?
    = some (BitVec.ofNat 8 ((x.launchQ[k.val]?.map Fin.val).getD 0xFF)) := by
  have stands : (27 + k.val, 1, (x.launchQ[k.val]?.map Fin.val).getD 0xFF) ∈ placed 0 (x.fields h) := by
    refine List.mem_of_getElem? (i := 14 + k.val) ?_
    fin_cases k <;> rfl
  have byte := congrArg (fun l : List Byte => l[0]?) (take_drop_of_placed stands [] rfl)
  rw [List.nil_append, ← x.report_layout h, encodeLE_one] at byte
  simpa using byte

variable {x}

/-- A level in use reads its counter (R43). -/
theorem Context.takeReport_at {p : Vector Nat 4} {k : Fin 4} (hp : x.take = .at p)
    (hk : ∀ d, x.snapshot = some d → k.val < d.levels) : x.takeReport k = p.get k := by
  have used : k.val < (x.snapshot.map Descriptor.levels).getD 4 := by
    cases hd : x.snapshot with
    | none => exact k.isLt
    | some d => exact hk d hd
  simp only [Context.takeReport, hp, if_pos used]

/-- A level not in use, and every level of an exhausted walk, reads 0 (R43). -/
theorem Context.takeReport_zero {k : Fin 4} (hk : x.take = .exhausted ∨ ∃ d, x.snapshot = some d ∧ d.levels ≤ k.val) :
    x.takeReport k = 0 := by
  unfold Context.takeReport
  split
  · rfl
  · rename_i p hp
    obtain ⟨d, hd, hle⟩ := hk.resolve_left (by rw [hp]; simp)
    rw [hd]
    exact if_neg (Nat.not_lt.mpr hle)

end Table43

/-! ### What the read commands answer (R155, R158) -/

section Owners

variable {s : State} {b : Byte}

theorem ownReadDesc_badIndex (h : 64 ≤ b.toNat) : ownReadDesc ([] ++ [b]) s = s.refuse .badIndex := by
  have out : 64 ≤ argByte ([] ++ [b]) 0 := h
  simp only [ownReadDesc, indexOf_out out]

theorem ownReadDesc_done {i : DescIx} (h : i.val = b.toNat) :
    ownReadDesc ([] ++ [b]) s = { state := s, status := .ok, bytes := (s.desc i).report } := by
  have named : indexOf 64 (argByte ([] ++ [b]) 0) = some i := indexOf_eq h
  simp only [ownReadDesc, named]

theorem ownReadAperture_badIndex (h : 8 ≤ b.toNat) : ownReadAperture ([] ++ [b]) s = s.refuse .badIndex := by
  have out : 8 ≤ argByte ([] ++ [b]) 0 := h
  simp only [ownReadAperture, indexOf_out out]

theorem ownReadAperture_done {i : ApIx} (h : i.val = b.toNat) :
    ownReadAperture ([] ++ [b]) s = { state := s, status := .ok, bytes := (s.aperture i).report } := by
  have named : indexOf 8 (argByte ([] ++ [b]) 0) = some i := indexOf_eq h
  simp only [ownReadAperture, named]

theorem ownReadContext_badIndex (h : 8 ≤ b.toNat) : ownReadContext ([] ++ [b]) s = s.refuse .badIndex := by
  have out : 8 ≤ argByte ([] ++ [b]) 0 := h
  simp only [ownReadContext, indexOf_out out]

theorem ownReadContext_done {c : Ctx} (h : c.val = b.toNat) : ownReadContext ([] ++ [b]) s
    = { state := s, status := .ok, bytes := (s.context c).report (s.headReport c) } := by
  have named : indexOf 8 (argByte ([] ++ [b]) 0) = some c := indexOf_eq h
  simp only [ownReadContext, named]

theorem ownReadPacing_badIndex (h : 8 ≤ b.toNat) : ownReadPacing ([] ++ [b]) s = s.refuse .badIndex := by
  have out : 8 ≤ argByte ([] ++ [b]) 0 := h
  simp only [ownReadPacing, indexOf_out out]

theorem ownReadPacing_done {f : Ctx} (h : f.val = b.toNat) :
    ownReadPacing ([] ++ [b]) s = { state := s, status := .ok, bytes := s.pacingReport f } := by
  have named : indexOf 8 (argByte ([] ++ [b]) 0) = some f := indexOf_eq h
  simp only [ownReadPacing, named]

/-- The reply of IDENTIFY (R160, Table 44). -/
theorem State.identity_eq (s : State) :
    s.identity = [0x08, 0x24, 8, 64, 8, s.strap.setWidth 8, 0xA4 + s.strap.setWidth 8] := by
  have strap : encodeLE 1 s.strap.toNat = [s.strap.setWidth 8] := by rw [encodeLE_one, BitVec.ofNat_toNat]
  rw [State.identity, strap]
  rfl

/-- The reply of READ_EVENT_STATUS (R172, Table 44). -/
theorem ownReadEventStatus_bytes (ps : List Byte) (s : State) : (ownReadEventStatus ps s).bytes
    = [BitVec.ofNat 8 s.events.length, BitVec.ofNat 8 (s.events.countP s.enabled)] ++ encodeLE 2 s.loss
      ++ encodeLE 2 s.mask.toNat ++ [if s.attnLow = true then 1 else 0] := by
  have attention : encodeLE 1 s.attnLow.toNat = [if s.attnLow = true then 1 else 0] := by
    cases s.attnLow <;> rfl
  simp only [ownReadEventStatus, attention, encodeLE_one]
  rfl

/-- ATTN# is low exactly while a record of an enabled kind waits (R174). -/
theorem State.attnLow_iff_countP {s : State} : s.attnLow = true ↔ s.events.countP s.enabled ≠ 0 := by
  simp [State.attnLow, List.countP_eq_zero]

/-- The head that READ_CONTEXT reports (R43, R124). -/
theorem State.headReport_nil {s : State} {c : Ctx} (h : (s.context c).service = []) : s.headReport c = none := by
  simp only [State.headReport, h]

theorem State.headReport_cons {s : State} {c : Ctx} {u : HostTag} {rest : List HostTag} {x : HostSlot}
    (h : (s.context c).service = u :: rest) (hx : s.slot u = some x) :
    s.headReport c = some (u, x.taken, x.count.getD 0 - x.taken) := by
  simp only [State.headReport, h, hx]

end Owners

/-- Settles O42: the replies are laid out field by field, and the owners of the read commands give back the state. -/
theorem readCommandsReportAndChangeNothing : Obligations.ReadCommandsReportAndChangeNothing := by
  unfold Obligations.ReadCommandsReportAndChangeNothing
  intro laid
  refine ⟨⟨fun d => ⟨d.report_eq, d.report_length⟩, fun x h => ⟨?_, fun k => ⟨fun p hp hk => ?_, fun hk => ?_, ?_⟩⟩,
    fun a => ?_, fun s f hf => ?_, fun s f l hl => ?_, fun t => ?_, fun e => ?_, by decide, by decide⟩, fun s => ?_⟩
  · exact x.report_named h
  · rw [x.report_take h, Context.takeReport_at hp hk]
  · rw [x.report_take h, Context.takeReport_zero hk]
    rfl
  · exact x.report_launchQ h k
  · exact laid_of_layout a.report_layout rfl fun f hf => hf
  · exact laid_of_layout (State.pacingReport_none hf) rfl fun f hf => hf
  · exact laid_of_layout (State.pacingReport_some hl) rfl fun f hf => hf
  · exact laid_of_layout t.report_layout rfl fun f hf => hf
  · exact laid_of_layout e.report_layout rfl fun f hf => hf
  · intro replies bad
    refine ⟨fun hp => ⟨?_, ?_, ?_, State.attnLow_iff_countP, fun e rest front => ?_⟩, fun b =>
      ⟨fun hw => ⟨fun i hi => ?_, fun hb => ?_⟩, fun hw => ⟨fun i hi => ?_, fun hb => ?_⟩,
        fun hw => ⟨fun c hc => ⟨?_, State.headReport_nil, fun h rest x => State.headReport_cons⟩, fun hb => ?_⟩,
        fun hw => ⟨fun f hf => ?_, fun hb => ?_⟩⟩⟩
    · rw [← s.identity_eq]
      exact congrArg _ (State.command_code_done hp rfl rfl)
    · exact congrArg _ (State.command_code_done hp rfl rfl)
    · rw [← ownReadEventStatus_bytes [] s]
      exact congrArg _ (State.command_code_done hp rfl rfl)
    · exact congrArg _ (State.command_code_done hp rfl (ownPeekEvent_front front))
    · exact congrArg _ (State.command_done hw rfl (ownReadDesc_done hi))
    · exact congrArg _ (State.command_refused hw rfl (ownReadDesc_badIndex hb))
    · exact congrArg _ (State.command_done hw rfl (ownReadAperture_done hi))
    · exact congrArg _ (State.command_refused hw rfl (ownReadAperture_badIndex hb))
    · exact congrArg _ (State.command_done hw rfl (ownReadContext_done hc))
    · exact congrArg _ (State.command_refused hw rfl (ownReadContext_badIndex hb))
    · exact congrArg _ (State.command_done hw rfl (ownReadPacing_done hf))
    · exact congrArg _ (State.command_refused hw rfl (ownReadPacing_badIndex hb))

end Sys2Proof.Machine
end
